-- ==== Sys2Proof/Word.lean ====
section
/-! DEFINITION. The word types of the SZ3. Widths are those of R22, R126 and R248. -/

namespace Sys2Proof

/-- One byte of memory (R22). -/
abbrev Byte := BitVec 8

/-- A per-thread register (R126). -/
abbrev Word := BitVec 32

/-- A uniform register, an immediate word, a 64-bit hardware register (R126, R133). -/
abbrev DWord := BitVec 64

/-- A mask over the 32 lanes of a group (R81). -/
abbrev Lanes := BitVec 32

/-- The 128 bytes of one cache line, byte 0 in bits [7:0] (R248). -/
abbrev LineData := BitVec 1024

/-- A SHA-512 value (R66, R515, R548). -/
abbrev Digest := BitVec 512

/-- Sparse data by key: a list with strictly rising keys and no entry equal to the default value. -/
abbrev Sparse (α : Type) := List (Nat × α)

end Sys2Proof
end

