-- ==== Sys2Proof/Syntax.lean ====
section
/-! DEFINITION. The commands of the SZ3 taken as a block: one constructor for each row of the opcode table,
with the operands the spec gives that operation or event, and the types of those operands. -/

namespace Sys2Proof

/-- The place of a resident group: compute die, core, sub-core, group slot (R85, R125). [DEDUCED, log 7] -/
structure GroupRef where
  die  : Nat
  core : Nat
  sub  : Nat
  slot : Nat
  deriving DecidableEq, Repr

/-- Every field of a format A word but the opcode, and the immediate word of its long form (R134, R136). [DEDUCED, log 7] -/
structure FmtA where
  guard : BitVec 5 := 0
  lf    : Bool := false
  d     : BitVec 8 := 0
  a     : BitVec 8 := 0
  b     : BitVec 8 := 0
  c     : BitVec 8 := 0
  mod   : BitVec 11 := 0
  ib    : Bool := false
  uf    : Bool := false
  ka    : Bool := false
  kb    : Bool := false
  kc    : Bool := false
  imm   : DWord := 0
  deriving DecidableEq, Repr

/-- Every field of a format I word but the opcode (R139); `z59` and `z63` are the bits that must be 0. [DEDUCED, log 7] -/
structure FmtI where
  guard : BitVec 5 := 0
  lf    : Bool := false
  d     : BitVec 8 := 0
  a     : BitVec 8 := 0
  imm16 : BitVec 16 := 0
  mod   : BitVec 11 := 0
  z59   : Bool := false
  uf    : Bool := false
  ka    : Bool := false
  z63   : BitVec 2 := 0
  deriving DecidableEq, Repr

/-- Every field of a format M word but the opcode (R140); `z58` and `z63` are the bits that must be 0. [DEDUCED, log 7] -/
structure FmtM where
  guard : BitVec 5 := 0
  lf    : Bool := false
  d     : BitVec 8 := 0
  a     : BitVec 8 := 0
  off16 : BitVec 16 := 0
  width : BitVec 3 := 0
  sem   : BitVec 2 := 0
  scope : BitVec 3 := 0
  hint  : BitVec 2 := 0
  z58   : BitVec 2 := 0
  uf    : Bool := false
  ka    : Bool := false
  kd    : Bool := false
  z63   : Bool := false
  imm   : DWord := 0
  deriving DecidableEq, Repr

/-- Every field of a format B word but the opcode (R141). The indirect forms read bits [35:16] of the word,
which are `toff`: a in bits [7:0], zeros in [18:8], the kind bit ka in [19]. [DEDUCED, log 7] -/
structure FmtB where
  guard : BitVec 5 := 0
  lf    : Bool := false
  toff  : BitVec 20 := 0
  coff  : BitVec 20 := 0
  link  : BitVec 8 := 0
  imm   : DWord := 0
  deriving DecidableEq, Repr

/-- The units that exchange the messages of R258 (numbers of R26). -/
inductive UnitId where
  | core (die core : Nat)
  | slice (n : Nat)
  | copyEngine (n : Nat)
  | collEngine (n : Nat)
  | control (p : Nat)
  | host
  deriving DecidableEq, Repr

/-- The MetaValue of a CXL.mem request (R272). -/
inductive Meta where
  | i | s | a
  deriving DecidableEq, Repr

/-- The state of a host line in its proxy slice, and the state a CXL.cache response grants (R255). -/
inductive Mesi where
  | i | s | e | m
  deriving DecidableEq, Repr

/-- An error in one symbol of one sector's burst: sector of the line, symbol 0-35, error byte (R310). -/
structure SymErr where
  sector : Nat
  symbol : Nat
  err    : Byte
  deriving DecidableEq, Repr

/-- Header fields of a configuration image (R63). `reservedZero`: every field shown as 0 is 0. -/
structure ImgHeader where
  magic           : Nat := 0x43335A53
  formatVersion   : Nat := 1
  headerSize      : Nat := 64
  imageLength     : Nat := 0
  sectionCount    : Nat := 12
  flags           : Nat := 0
  securityVersion : Nat := 0
  reservedZero    : Bool := true
  imageId         : DWord := 0
  deriving DecidableEq, Repr

/-- One entry of INSTANCE_SLOTS (R414). -/
structure ImgSlot where
  inst     : Nat
  accounts : Nat
  sizeGib  : Nat
  base     : Nat
  deriving DecidableEq, Repr

/-- A carve-out or a spill area: base and size in bytes (R77). -/
structure Area where
  base : Nat := 0
  size : Nat := 0
  deriving DecidableEq, Repr

/-- The body of a section (R65), as fields: the spec gives byte layouts for some sections only.
Lists per partition hold one entry for each partition number 0-3. `zero`: the fields shown as 0 are 0. -/
inductive ImgBody where
  | firmware (digest : Digest)
  | partitionTable (layout : Nat)
  | instanceSlots (zero : Bool) (slots : List ImgSlot)
  | powerEnvelope (bmin bmax : Nat) (share ceil : List Nat) (baseCeil coreCap tj : Nat) (zero : Bool)
  | memoryOptions (rate floor scrub : Nat) (zero : Bool)
  | linkMaps (stackMapOk : Bool) (moduleId : Nat) (portMap : List Word) (route : Sparse (BitVec 16))
  | queueBudgets (owners : List (Nat × Nat)) (timers : List (Nat × Nat)) (globalTimeout : Nat)
  | resources (eventLog : Area) (spill : List Area) (ledger : Area) (quotas : List (Nat × Nat))
  | ledgerPolicy (interval idle : Nat) (zero : Bool)
  | optionSwitches (trapDiv trapUnc indirect : List Bool) (pps : Bool) (traceWidth : Nat)
  | signature (sigFormat sigFlags keyIndex : Nat) (zero : Bool) (ownerModulus irxisSig ownerSig : Nat)
  | other
  deriving DecidableEq, Repr

/-- One section of an image: type, section format version, body length in bytes, body (R64). -/
structure ImgSection where
  type    : Nat
  version : Nat
  length  : Nat
  body    : ImgBody
  deriving DecidableEq, Repr

/-- A configuration image (R63-R66). `digest` is the SHA-512 of the signed message (R515), `cfgDigest` that of
the section headers and bodies of types 0x0010-0x0018 (R519). [DEDUCED, log 49] -/
structure Image where
  header    : ImgHeader := {}
  sections  : List ImgSection := []
  digest    : Digest := 0
  cfgDigest : Digest := 0
  deriving DecidableEq, Repr

/-- What the physical tests of one start find (R36, R37, R70, R317, R322): the surroundings' and the
silicon's part of phases 1-9. `hang n`: phase n does not end within its bound. [DEDUCED, log 49] -/
structure StartEnv where
  hang         : Option Nat := none
  detector     : Option Nat := none
  romOk        : Bool := true
  flashAnswers : Bool := true
  laneFail     : List (Nat × Nat × Nat) := []
  density      : List (Nat × Nat) := []
  trainFail    : Bool := false
  zeroUE       : Bool := false
  coreFail     : List (Nat × Nat) := []
  formOk       : Bool := true
  msInProgress : Nat := 0
  msEnd        : Nat := 0
  deriving DecidableEq, Repr, Inhabited

/-- A detector's report (R493, R500): detector code, unit number (R583), masked or detected, detail (R502). -/
structure FaultRep where
  detector : Nat
  unit     : Nat
  detected : Bool
  detail   : DWord := 0
  injected : Bool := false
  deriving DecidableEq, Repr

/-- A message between modules (R451). `w1` is bytes 8-15; `operand` and `opMax` are the second place of a
SIGNAL; `data` is the BULK data. -/
structure SeifMsg where
  dstModule : Nat
  dpart     : Nat
  srcModule : Nat
  spart     : Nat
  type      : Nat
  hops      : Nat := 15
  function  : Nat
  handle    : Nat := 0
  w1        : DWord := 0
  operand   : DWord := 0
  opMax     : Bool := false
  dlen      : Nat := 0
  data      : List Byte := []
  deriving DecidableEq, Repr

/-- A received PAYLOAD flit (R447): sequence number, acknowledgement, channel, returned credits, its messages,
and whether its CRC-64 agrees (R448). -/
structure SeifFlit where
  seq   : Nat
  ack   : Nat
  bulk  : Bool
  ctrlCredits : Nat := 0
  bulkCredits : Nat := 0
  crcOk : Bool := true
  msgs  : List SeifMsg
  deriving DecidableEq, Repr

/-- What the peer of a Seif port shows in training (R444, R445): whether it is there, which lanes are good in
both directions, its module, port and protocol version. -/
structure SeifPeer where
  present : Bool
  good    : BitVec 8
  modId   : Nat
  port    : Nat
  version : Nat := 1
  deriving DecidableEq, Repr

/-- A token as the assayer reads it from host memory (R525). `zero`: bytes 0x038-0x03F are 0. -/
structure Token where
  magic        : Nat
  purpose      : Nat
  signer       : Nat
  keyIndex     : Nat
  arg          : Nat
  serial       : DWord
  nonce        : BitVec 256
  zero         : Bool
  ownerModulus : Nat
  signature    : Nat
  deriving DecidableEq, Repr

/-- What the meter and the monitors of the power controller read in one control period (R472, R473). -/
structure PowerMeas where
  inputW    : Nat
  inputDa   : Nat
  partW     : List Nat := []
  railMa    : List Nat := []
  deriving DecidableEq, Repr

/-- Register spaces of the host port (R398, R400, R401). -/
inductive RegSpace where
  | pf0Bar0
  | pf0Bar2
  | vfBar0 (vf : Nat)
  | vfBar2 (vf : Nat)
  | pf0Cfg
  | vfCfg (vf : Nat)
  deriving DecidableEq, Repr

/-- From where a doorbell access comes (R335, R401): the host through PF0 or a virtual function, or a core. -/
inductive DblSource where
  | pf0
  | vf (k : Nat)
  | core (die core : Nat)
  deriving DecidableEq, Repr

/-- A mailbox (R423). -/
inductive MailboxId where
  | foreman
  | secure
  | toManager (inst : Nat)
  | toTenant (inst : Nat)
  deriving DecidableEq, Repr

/-- A sideband message of the host die (R392). -/
inductive Sideband where
  | initialise
  | parameters
  deriving DecidableEq, Repr

/-- The commands of the block: one constructor for each row of the opcode table. The commands without an
operand stand last: a program that holds a command can be compiled only if its constructor number is at most 244. -/
inductive Instr where
  /-- START, R70. Release of RESET_N while PWR_OK is asserted (or PWR_OK asserted while RESET_N is released) begins a start that runs phases 1 to 9. -/
  | start (env : StartEnv)
  /-- START_RETRY, R71. 100 ms after a FAILED entry the SZ3 releases FAULT_N and begins a new start at phase 1. -/
  | startRetry (env : StartEnv)
  /-- CLEAR_RECORD, R74. HUB_START_CTL action CLEAR_RECORD erases the start-record sector and writes a CLEARED entry with consec_fail 0. -/
  | clearRecord (key : Word)
  /-- HUB_START_CTL_START, R74. HUB_START_CTL action START begins a start from oasis mode when the current record holds consec_fail 0, otherwise is ignored. -/
  | hubStartCtlStart (key : Word) (env : StartEnv)
  /-- IADD, R147. Integer add, wrapping or saturating. -/
  | iadd (g : GroupRef) (w : FmtA)
  /-- ISUB, R147. Integer subtract, wrapping or saturating. -/
  | isub (g : GroupRef) (w : FmtA)
  /-- IMUL_LO, R147. Low half of an integer product. -/
  | imulLo (g : GroupRef) (w : FmtA)
  /-- IMUL_HI, R147. Upper half of the double-width integer product. -/
  | imulHi (g : GroupRef) (w : FmtA)
  /-- IMAD_LO, R147. Integer multiply-add, low half, optionally saturating. -/
  | imadLo (g : GroupRef) (w : FmtA)
  /-- IMIN, R147. Integer minimum. -/
  | imin (g : GroupRef) (w : FmtA)
  /-- IMAX, R147. Integer maximum. -/
  | imax (g : GroupRef) (w : FmtA)
  /-- IABS, R147. Integer absolute value. -/
  | iabs (g : GroupRef) (w : FmtA)
  /-- IDP4, R147. Four-element 8-bit dot product added to c, wrapping modulo 2^32. -/
  | idp4 (g : GroupRef) (w : FmtA)
  /-- BLUT, R149. Bitwise three-input lookup table. -/
  | blut (g : GroupRef) (w : FmtA)
  /-- SHL, R148. Logical shift left. -/
  | shl (g : GroupRef) (w : FmtA)
  /-- SHR, R148. Logical shift right. -/
  | shr (g : GroupRef) (w : FmtA)
  /-- SAR, R148. Arithmetic shift right. -/
  | sar (g : GroupRef) (w : FmtA)
  /-- SHF, R148. Funnel shift of c:a left or right. -/
  | shf (g : GroupRef) (w : FmtA)
  /-- POPC, R146. Population count. -/
  | popc (g : GroupRef) (w : FmtA)
  /-- CLZ, R146. Count leading zeros. -/
  | clz (g : GroupRef) (w : FmtA)
  /-- BREV, R146. Bit reverse. -/
  | brev (g : GroupRef) (w : FmtA)
  /-- BFE, R148. Bit-field extract, zero- or sign-extended. -/
  | bfe (g : GroupRef) (w : FmtA)
  /-- BFI, R148. Bit-field insert. -/
  | bfi (g : GroupRef) (w : FmtA)
  /-- ISETP, R149. Integer compare to a predicate, combined with p(c). -/
  | isetp (g : GroupRef) (w : FmtA)
  /-- FSETP, R149. Floating-point compare to a predicate under IEEE rules. -/
  | fsetp (g : GroupRef) (w : FmtA)
  /-- SEL, R149. Select a or b by p(c). -/
  | sel (g : GroupRef) (w : FmtA)
  /-- PLUT, R149. Predicate three-input lookup table. -/
  | plut (g : GroupRef) (w : FmtA)
  /-- PMOV_P2V, R149. Move p0-p7 into bits [7:0] of a register. -/
  | pmovP2v (g : GroupRef) (w : FmtA)
  /-- PMOV_V2P, R149. Set p0-p7 from bits [7:0] of a register. -/
  | pmovV2p (g : GroupRef) (w : FmtA)
  /-- FADD, R150. Floating-point add rounded once in the named mode. -/
  | fadd (g : GroupRef) (w : FmtA)
  /-- FMUL, R150. Floating-point multiply rounded once. -/
  | fmul (g : GroupRef) (w : FmtA)
  /-- FFMA, R150. Fused multiply-add with a single rounding. -/
  | ffma (g : GroupRef) (w : FmtA)
  /-- FMIN, R150. IEEE 754-2019 minimum. -/
  | fmin (g : GroupRef) (w : FmtA)
  /-- FMAX, R150. IEEE 754-2019 maximum. -/
  | fmax (g : GroupRef) (w : FmtA)
  /-- FRCP, R150. Correctly rounded reciprocal. -/
  | frcp (g : GroupRef) (w : FmtA)
  /-- FDIV, R150. Correctly rounded division. -/
  | fdiv (g : GroupRef) (w : FmtA)
  /-- FSQRT, R150. Correctly rounded square root. -/
  | fsqrt (g : GroupRef) (w : FmtA)
  /-- FRSQ, R150. Correctly rounded reciprocal square root. -/
  | frsq (g : GroupRef) (w : FmtA)
  /-- FEX2, R150. Correctly rounded 2^x. -/
  | fex2 (g : GroupRef) (w : FmtA)
  /-- FLG2, R150. Correctly rounded log2 x. -/
  | flg2 (g : GroupRef) (w : FmtA)
  /-- FSIN, R150. Correctly rounded sine in radians. -/
  | fsin (g : GroupRef) (w : FmtA)
  /-- FCOS, R150. Correctly rounded cosine in radians. -/
  | fcos (g : GroupRef) (w : FmtA)
  /-- FTANH, R150. Correctly rounded hyperbolic tangent. -/
  | ftanh (g : GroupRef) (w : FmtA)
  /-- CVT, R182. Convert one value between formats in the named mode. -/
  | cvt (g : GroupRef) (w : FmtA)
  /-- CVT_RS, R185. Convert with deterministic stochastic rounding keyed on the element address. -/
  | cvtRs (g : GroupRef) (w : FmtA)
  /-- CVT_PACK, R183. Convert FP32 values and pack narrow or scaled elements into d. -/
  | cvtPack (g : GroupRef) (w : FmtA)
  /-- CVT_UNPACK, R184. Extract one narrow element and write its value as FP32. -/
  | cvtUnpack (g : GroupRef) (w : FmtA)
  /-- MOV, R146. Move a register or immediate. -/
  | mov (g : GroupRef) (w : FmtA)
  /-- MOV_SR, R130. Read a special register. -/
  | movSr (g : GroupRef) (w : FmtI)
  /-- MOV_TOSR, R130. Write sr_seed or clear sr_flags bits. -/
  | movTosr (g : GroupRef) (w : FmtI)
  /-- LD_LOCAL, R151. Load from local memory or the cluster window. -/
  | ldLocal (g : GroupRef) (w : FmtM)
  /-- ST_LOCAL, R151. Store to local memory or the cluster window. -/
  | stLocal (g : GroupRef) (w : FmtM)
  /-- LD_GLOBAL, R236. Global load served by the L1 or a slice per its sem and scope. -/
  | ldGlobal (g : GroupRef) (w : FmtM)
  /-- ST_GLOBAL, R236. Global store written through to the home slice. -/
  | stGlobal (g : GroupRef) (w : FmtM)
  /-- LD_CONST, R153. Load from constant space through the constant cache. -/
  | ldConst (g : GroupRef) (w : FmtM)
  /-- PREFETCH_GLOBAL, R236. Fill the home slice and L1 with a line. -/
  | prefetchGlobal (g : GroupRef) (w : FmtM)
  /-- BCOPY_G2L, R155. Start a bulk copy from global memory to local memory. -/
  | bcopyG2l (g : GroupRef) (w : FmtA)
  /-- BCOPY_L2G, R155. Start a bulk copy from local memory to global memory. -/
  | bcopyL2g (g : GroupRef) (w : FmtA)
  /-- BCOPY_COMPLETE, R155. When every byte of a bulk copy is written the core adds 1 to its completion counter as a block-scope release. -/
  | bcopyComplete (die core sub slot : Nat)
  /-- BWAIT, R156. Hold the path until a local completion counter reaches b. -/
  | bwait (g : GroupRef) (w : FmtA)
  /-- ATOM_ADD, R157. Atomic add at the executing unit. -/
  | atomAdd (g : GroupRef) (w : FmtA)
  /-- ATOM_MIN, R157. Atomic minimum. -/
  | atomMin (g : GroupRef) (w : FmtA)
  /-- ATOM_MAX, R157. Atomic maximum. -/
  | atomMax (g : GroupRef) (w : FmtA)
  /-- ATOM_AND, R157. Atomic AND. -/
  | atomAnd (g : GroupRef) (w : FmtA)
  /-- ATOM_OR, R157. Atomic OR. -/
  | atomOr (g : GroupRef) (w : FmtA)
  /-- ATOM_XOR, R157. Atomic XOR. -/
  | atomXor (g : GroupRef) (w : FmtA)
  /-- ATOM_EXCH, R157. Atomic exchange returning the old value. -/
  | atomExch (g : GroupRef) (w : FmtA)
  /-- ATOM_CAS, R157. Atomic compare-and-swap returning the old value. -/
  | atomCas (g : GroupRef) (w : FmtA)
  /-- RED_ADD, R159. Contribute an addend to a reduction line. -/
  | redAdd (g : GroupRef) (w : FmtA)
  /-- RED_MIN, R159. Contribute a minimum operand to a reduction line. -/
  | redMin (g : GroupRef) (w : FmtA)
  /-- RED_MAX, R159. Contribute a maximum operand to a reduction line. -/
  | redMax (g : GroupRef) (w : FmtA)
  /-- RCLOSE, R291. Close the reduction line containing address a. -/
  | rclose (g : GroupRef) (w : FmtA)
  /-- FENCE, R234. Order the lane's accesses at the named sem and scope. -/
  | fence (g : GroupRef) (w : FmtA)
  /-- NOP, R163. Instruction that does nothing. -/
  | nop (g : GroupRef) (w : FmtA)
  /-- BRA, R161. Direct branch, splitting the path when lanes differ. -/
  | bra (g : GroupRef) (w : FmtB)
  /-- BRA_I, R161. Indirect branch through a register. -/
  | braI (g : GroupRef) (w : FmtB)
  /-- CALL, R162. Write the return address to the link pair and branch. -/
  | call (g : GroupRef) (w : FmtB)
  /-- CALL_I, R162. Indirect call through a register. -/
  | callI (g : GroupRef) (w : FmtB)
  /-- RET, R162. Indirect return through a register. -/
  | ret (g : GroupRef) (w : FmtB)
  /-- BREAK_AWAY, R113. A parked path breaks away after 1,024 backward branches or YIELDs of its siblings. -/
  | breakAway (g : GroupRef)
  /-- SYNC, R110. Hold arriving paths until their lane mask is satisfied, then merge. -/
  | sync (g : GroupRef) (w : FmtA)
  /-- SYNC_BLOCK, R92. Block barrier completing when every non-exited lane of the block arrives. -/
  | syncBlock (g : GroupRef) (w : FmtA)
  /-- SYNC_CLUSTER, R98. Cluster barrier completing when every non-exited lane of the cluster arrives. -/
  | syncCluster (g : GroupRef) (w : FmtA)
  /-- YIELD, R163. Let another ready path of the group run. -/
  | yield (g : GroupRef) (w : FmtA)
  /-- EXIT, R91. End the taking-part lanes; the group and block end when all have exited. -/
  | exit (g : GroupRef) (w : FmtA)
  /-- SHFL, R165. Give each lane a value from a source lane. -/
  | shfl (g : GroupRef) (w : FmtA)
  /-- VOTE, R166. Vote ALL, ANY, EQ or BALLOT over taking-part lanes. -/
  | vote (g : GroupRef) (w : FmtA)
  /-- REDUX, R167. Reduce a value over the taking-part lanes in a fixed tree. -/
  | redux (g : GroupRef) (w : FmtA)
  /-- MMA_F8_F32, R208. Register-form FP8 matrix multiply-accumulate with one rounding per output. -/
  | mmaF8F32 (g : GroupRef) (w : FmtA)
  /-- MMA_I8_S32, R208. Register-form 8-bit integer matrix multiply-accumulate. -/
  | mmaI8S32 (g : GroupRef) (w : FmtA)
  /-- MMA_BF16_F32, R208. Register-form BF16 matrix multiply-accumulate. -/
  | mmaBf16F32 (g : GroupRef) (w : FmtA)
  /-- MMA_F16_F32, R208. Register-form FP16 matrix multiply-accumulate. -/
  | mmaF16F32 (g : GroupRef) (w : FmtA)
  /-- MMA_MX_F32, R208. Register-form microscaling matrix multiply-accumulate. -/
  | mmaMxF32 (g : GroupRef) (w : FmtA)
  /-- MMA_IX4_F32, R208. Register-form IX4 matrix multiply-accumulate with tensor scales. -/
  | mmaIx4F32 (g : GroupRef) (w : FmtA)
  /-- MMA_I4_S32, R208. Register-form 4-bit integer matrix multiply-accumulate. -/
  | mmaI4S32 (g : GroupRef) (w : FmtA)
  /-- MMS, R214. Streaming matrix multiply from local memory into an accumulator tile. -/
  | mms (g : GroupRef) (w : FmtA)
  /-- ACC_LD, R211. Load a 16x16 sub-tile from the accumulator store into an octet. -/
  | accLd (g : GroupRef) (w : FmtA)
  /-- ACC_ST, R211. Store an octet into an accumulator sub-tile. -/
  | accSt (g : GroupRef) (w : FmtA)
  /-- ACC_ZERO, R211. Write +0 to a range of the accumulator store. -/
  | accZero (g : GroupRef) (w : FmtA)
  /-- SMX_MAX, R218. Online-softmax max step with rescaling of the output tile. -/
  | smxMax (g : GroupRef) (w : FmtA)
  /-- SMX_SUM, R219. Online-softmax exponentiate-and-sum step writing P to local memory. -/
  | smxSum (g : GroupRef) (w : FmtA)
  /-- BKPT, R116. Halt the group and write a BREAK record when debug is enabled, else do nothing. -/
  | bkpt (g : GroupRef) (w : FmtI)
  /-- PENDING_RECORD_WRITE, R123. A debug record held for lack of ring space is written once producer minus consumer falls below the ring size. -/
  | pendingRecordWrite (ring : Nat)
  /-- BLOCK_PLACE, R103. A die's block allocator places the next block or cluster of a task on the first core or row with enough resources. -/
  | blockPlace (q i : Nat)
  /-- RD_S, R267. Read request wanting a replica arrives at a home slice. -/
  | rdS (src dst : UnitId)
  /-- RD_O, R267. Read request without replica arrives at a home or proxy slice. -/
  | rdO (src dst : UnitId)
  /-- WR, R265. Write arrives at a home: invalidate sharers and host copies, write, then ACK. -/
  | wr (src dst : UnitId)
  /-- ATM, R266. Atomic request arrives at a home, proxy slice or controller and is performed. -/
  | atm (src dst : UnitId)
  /-- REDC, R289. A contribution arrives at the home, opening the line if needed, entering the shadows and counting. -/
  | redc (src dst : UnitId)
  /-- FILL, R264. Fill data arrives at a near slice, which installs a replica or not and delivers to requesters. -/
  | fill (src dst : UnitId)
  /-- ACK, R238. Write acknowledgement arrives at the writer, completing its performance. -/
  | ack (src dst : UnitId)
  /-- ATM_RSP, R258. Atomic response with old values arrives at the requester. -/
  | atmRsp (src dst : UnitId)
  /-- INV, R269. Invalidate arrives at a near slice, which removes its replica or sets INV_SEEN and answers INV_ACK. -/
  | inv (src dst : UnitId)
  /-- INV_ACK, R265. Invalidate acknowledgement arrives at the home. -/
  | invAck (src dst : UnitId)
  /-- EVN, R267. Eviction notice clears the stack's sharers bit at the home. -/
  | evn (src dst : UnitId)
  /-- HELD, R295. HELD arrives at a requester, stopping its coherence timer. -/
  | held (src dst : UnitId)
  /-- HOLD_NOTICE_TIMER, R295. After a request is held 100 µs at an open line the home sends HELD. -/
  | holdNoticeTimer (slice idx : Nat)
  /-- CHANNEL_READ_DATA, R311. Data of a channel read reaches the controller and is ECC-decoded and delivered, corrected or reported. -/
  | channelReadData (slice line : Nat) (errs : List SymErr)
  /-- COHERENCE_RESPONSE_TIMEOUT, R280. An answer not arrived within 1 ms brings down the coherent domain. -/
  | coherenceResponseTimeout (unit : UnitId) (line : Nat)
  /-- MEMRD, R267. Host CXL.mem read with MetaValue I, S or A. -/
  | memrd (hpa : Nat) (mv : Meta)
  /-- MEMRDDATA, R272. Host CXL.mem MemRdData request. -/
  | memrddata (hpa : Nat) (mv : Meta)
  /-- MEMINV, R272. Host CXL.mem MemInv request. -/
  | meminv (hpa : Nat) (mv : Meta)
  /-- MEMCLNEVCT, R267. Host clean eviction clears host_s and host_e. -/
  | memclnevct (hpa : Nat)
  /-- MEMWR, R267. Host full write to device memory. -/
  | memwr (hpa : Nat) (data : BitVec 512) (mv : Meta)
  /-- MEMWRPTL, R267. Host partial write to device memory. -/
  | memwrptl (hpa : Nat) (data : BitVec 512) (be : BitVec 64) (mv : Meta)
  /-- BIRSPI, R267. Host answers a back-invalidate snoop with invalid; both host bits clear. -/
  | birspi (hpa : Nat)
  /-- BIRSPS, R267. Host answers a back-invalidate snoop keeping a shared copy. -/
  | birsps (hpa : Nat)
  /-- SNPDATA, R274. Host snoop for data to a proxy slice. -/
  | snpdata (partition hpa : Nat)
  /-- SNPINV, R274. Host invalidating snoop to a proxy slice. -/
  | snpinv (partition hpa : Nat)
  /-- SNPCUR, R274. Host current-value snoop to a proxy slice. -/
  | snpcur (partition hpa : Nat)
  /-- HOST_CACHE_RESPONSE, R274. Host CXL.cache response to a proxy slice's RdShared, RdOwn, RdOwnNoData or evict. -/
  | hostCacheResponse (partition hpa : Nat) (grant : Mesi) (data : LineData)
  /-- SPILL_WAIT_RESUME, R300. A contribution or allocation waiting for a spill record proceeds when a close or reload frees one. -/
  | spillWaitResume (slice : Nat)
  /-- CORRECTION_WRITE, R314. A corrected sector is written back within 10 µs unless a foreground write cancels it. -/
  | correctionWrite (channel : Nat)
  /-- REFRESH, R318. Per-bank refresh or RFM falls due, and is forced at its postponement limit. -/
  | refresh (channel bank : Nat)
  /-- REFRESH_RATE_POLL, R319. Every 16 ms a cluster reads each package's refresh-rate readout and sets the multiplier. -/
  | refreshRatePoll (package : Nat) (readout : Nat)
  /-- PATROL_SCRUB_READ, R321. A channel's scrub read falls due every 4.5 or 2.25 ms and is forced after waiting 0.5 ms. -/
  | patrolScrubRead (channel : Nat) (errs : List SymErr)
  /-- RECALIBRATION, R323. A channel's recalibration falls due 256 ms after the last and starts when the channel is idle. -/
  | recalibration (channel : Nat) (ok : Bool)
  /-- RECALIBRATION_OVERDUE, R323. 8 ms after falling due the controller drains the channel and starts recalibration. -/
  | recalibrationOverdue (channel : Nat) (ok : Bool)
  /-- DBL_PRODUCER, R337. Doorbell write raising the producer index, ignored, or putting the queue in DOORBELL_OVERRUN. -/
  | dblProducer (source : DblSource) (page slot : Nat) (v : DWord)
  /-- BOOTSTRAP_CREATE, R340. DBL_BOOT_CFG write with create 1 creates the bootstrap queue as a kernel queue after checks. -/
  | bootstrapCreate (source : DblSource) (page slot : Nat) (value : DWord)
  /-- DESCRIPTOR_READ, R342. A descriptor read completes and the descriptor goes to the cursor its engine field names. -/
  | descriptorRead (q : Nat)
  /-- FENCE_POLL, R355. An unmet fence wait rereads its word at most 2 µs later or after a signal to it. -/
  | fencePoll (q cursor : Nat)
  /-- KERNEL, R347. A released kernel task is checked and its blocks are offered for placement. -/
  | kernel (q i : Nat)
  /-- TASK_NOP, R346. NOP task performs only dependences, fences and the record. -/
  | taskNop (q i : Nat)
  /-- COPY, R352. Copy-engine linear copy. -/
  | copy (q i : Nat)
  /-- COPY_2D, R352. Copy-engine two-dimensional copy. -/
  | copy2d (q i : Nat)
  /-- TASK_FILL, R352. Copy-engine fill with a 64-bit pattern. -/
  | taskFill (q i : Nat)
  /-- COPY_REDUCE, R352. Copy-engine transfer contributing source elements to reduction lines. -/
  | copyReduce (q i : Nat)
  /-- PUT, R455. Copy-engine put to another module. -/
  | put (q i : Nat)
  /-- GET, R455. Copy-engine get from another module. -/
  | get (q i : Nat)
  /-- COLLECTIVE, R459. Collective-engine collective across ranks. -/
  | collective (q i : Nat)
  /-- QUEUE_CREATE, R352. Create a queue after ordered checks of its fields. -/
  | queueCreate (q i : Nat)
  /-- QUEUE_DESTROY, R377. Destroy a queue: stop, squash, kill halted groups and drain. -/
  | queueDestroy (q i : Nat)
  /-- DESTROY_DRAIN_COMPLETE, R377. When the target's released tasks have drained its entry is freed and the destroy record written. -/
  | destroyDrainComplete (target : Nat)
  /-- PIN, R276. Pin a range in home slices within the pin quota. -/
  | pin (q i : Nat)
  /-- UNPIN, R277. Clear pinned on every line of a range. -/
  | unpin (q i : Nat)
  /-- TAG_CLOSE, R538. Mark a tag's account closing; complete once its final page is written. -/
  | tagClose (q i : Nat)
  /-- DEBUG_ATTACH, R119. Attach a debug ring to the issuing function. -/
  | debugAttach (q i : Nat)
  /-- DEBUG_READ, R119. Copy state of a halted group to a buffer. -/
  | debugRead (q i : Nat)
  /-- DEBUG_WRITE, R119. Copy from a buffer into a halted group's state. -/
  | debugWrite (q i : Nat)
  /-- DEBUG_STEP, R119. Let a halted group issue one instruction and halt again with a STEP record. -/
  | debugStep (q i : Nat)
  /-- DEBUG_RESUME, R119. Let a halted group run on and write RESUMED. -/
  | debugResume (q i : Nat)
  /-- DEBUG_KILL, R120. End every group of a halted group's block and fail its task with DEBUG_KILLED. -/
  | debugKill (q i : Nat)
  /-- DEBUG_DETACH, R119. Resume the function's halted groups and detach its ring. -/
  | debugDetach (q i : Nat)
  /-- TASK_DONE, R358. An engine reports a task done: signals, completion record and retirement follow. -/
  | taskDone (q i : Nat)
  /-- TASK_TIMEOUT, R366. A task's count reaching its effective timeout squashes it. -/
  | taskTimeout (q i : Nat)
  /-- FAULT_REPORT, R494. A detector's report reaches the fault collector, which logs it and contains the fault. -/
  | faultReport (rep : FaultRep)
  /-- WARM_RESTART, R384. After containment the partition resets cores and slices, sets queue states and returns to RUNNING. -/
  | warmRestart (p : Nat) (selfTestOk : Bool)
  /-- SIDEBAND_MESSAGE, R392. Host die sideband initialisation or parameter message answered by the SZ3. -/
  | sidebandMessage (m : Sideband)
  /-- LINK_RETRAIN, R393. A UCIe retrain completing within 1 ms, logged when it lowers width or rate. -/
  | linkRetrain (modules rate : Nat)
  /-- FUNCTION_LEVEL_RESET, R397. FLR clears PF0 config space or resets a VF's instance. -/
  | functionLevelReset (fn : Nat)
  /-- DMWR_POST, R402. Deferrable Memory Write to a mailbox post register, placed or refused. -/
  | dmwrPost (space : RegSpace) (off size : Nat) (body : BitVec 128)
  /-- POSTED_WRITE_DROP, R403. A plain posted write to a post register is discarded and counted. -/
  | postedWriteDrop (space : RegSpace) (off : Nat)
  /-- HOST_CACHEID_WRITE, R399. Write of the CacheID base, ignored if out of range or an agent is enabled. -/
  | hostCacheidWrite (v : Word)
  /-- HDM_DECODER_COMMIT, R407. Commit of an HDM decoder, succeeding only under the stated conditions. -/
  | hdmDecoderCommit (n base size ways gran : Nat)
  /-- MBX_RX_ACK, R426. Receiver acknowledge removes the oldest message and writes the sender's ack slot. -/
  | mbxRxAck (mb : MailboxId) (v : Word)
  /-- REGISTER_WRITE, R28. Write to a register with no row of its own. -/
  | registerWrite (space : RegSpace) (off size : Nat) (v : DWord)
  /-- FREEZE_DRAIN_COMPLETE, R435. When the instance's released tasks have drained the freeze continues to record writing. -/
  | freezeDrainComplete (inst : Nat)
  /-- SEIF_TRAINING, R444. An enabled port trains at phase 8 or 1 s after going DOWN. -/
  | seifTraining (port : Nat) (peer : SeifPeer)
  /-- RETRAIN, R446. A port repeats training steps 2-5 keeping its retry buffer. -/
  | retrain (port : Nat) (peer : SeifPeer)
  /-- LANE_LOSS_OF_LOCK, R446. A Seif lane loses lock and calls a retrain. -/
  | laneLossOfLock (port lane : Nat)
  /-- PAYLOAD, R449. A sequenced Seif flit is received, accepted or discarded with NAK. -/
  | payload (port : Nat) (flit : SeifFlit)
  /-- NAK, R449. On NAK the sender resends every flit from ack plus one. -/
  | nak (port ack : Nat)
  /-- NULL_FLIT, R449. An acknowledgement and credit flit is received. -/
  | nullFlit (port ack ctrlCredits bulkCredits : Nat)
  /-- NULL_TIMER, R449. After 100 ns without sending, a side sends NULL. -/
  | nullTimer (port : Nat)
  /-- LANE_CHANGE, R446. Lane-change handshake halving or restoring port width. -/
  | laneChange (port lanes : Nat)
  /-- PUT_DATA, R455. Put data written at its home on the target as an RLX store. -/
  | putData (port : Nat)
  /-- PUT_ACK, R455. Count of PUT_DATA messages performed arrives at the sender. -/
  | putAck (port : Nat)
  /-- GET_REQ, R451. Get request for source data arrives at the target. -/
  | getReq (port : Nat)
  /-- GET_DATA, R455. Get data arrives and is written locally. -/
  | getData (port : Nat)
  /-- SIGNAL, R455. Remote fence signal performed at the target. -/
  | signal (port : Nat)
  /-- SIGNAL_ACK, R455. Acknowledgement of a remote signal arrives. -/
  | signalAck (port : Nat)
  /-- COLL_READY, R462. A rank's readiness for a collective step arrives. -/
  | collReady (port : Nat)
  /-- COLL_DATA, R462. Collective step data arrives and is combined, measuring peer wait. -/
  | collData (port : Nat)
  /-- COLL_ABORT, R465. Collective abort ends the matching collective with PEER_ABORT. -/
  | collAbort (port : Nat)
  /-- NACK, R456. Target reports REMOTE_LOST or REMOTE_FAULT; the transfer stops. -/
  | nack (port : Nat)
  /-- CONTROL_PERIOD, R473. Every 100 µs the power controller computes targets and moves core setpoints. -/
  | controlPeriod (meas : PowerMeas)
  /-- BUDGET_SET, R471. PLDM SetNumericEffecterValue moving the module budget, stored during a sag stage. -/
  | budgetSet (id value : Nat)
  /-- CORE_CURRENT_LIMIT, R475. A core rail reaching core_cap has its voltage lowered within 1 µs. -/
  | coreCurrentLimit (rail mv : Nat)
  /-- INPUT_CURRENT_LIMIT, R475. Input above 125 A for 10 µs lowers every core ceiling by 25 mV each 10 µs. -/
  | inputCurrentLimit (isOver : Bool)
  /-- MONITOR_READING, R52. Voltage and temperature readings reach the management plane every 10 µs. -/
  | monitorReading (monitor reading : Nat)
  /-- INPUT_SAMPLE, R482. Every 1 µs the input is sampled; ten low samples enter sag stages. -/
  | inputSample (mv : Nat)
  /-- THERMAL_TRIP, R486. A monitor at 115 °C asserts THERMTRIP_N and turns off rails. -/
  | thermalTrip (monitor tj : Nat)
  /-- CANARY, R498. A handshake unacknowledged for 1 ms with its receiver idle is reported. -/
  | canary (unit handshake : Nat) (ok : Bool)
  /-- CONFIG_CODE, R493. The 1 ms sweep of sealed configuration words masks or detects errors. -/
  | configCode (unit word : Nat) (err : BitVec 64)
  /-- METER_CHECK, R499. Every 1 ms the meter compares its two sense channels per rail. -/
  | meterCheck (rail a b : Nat)
  /-- METER_INPUT_COMPARISON, R499. Every 1 s the rail sum is compared with input; a failure marks ledger pages suspect. -/
  | meterInputComparison (ok : Bool)
  /-- VOLTAGE_MON, R493. Paired voltage monitors compared every 1 ms and windows checked. -/
  | voltageMon (rail a b : Nat)
  /-- THERMAL_MON, R493. Paired thermal monitors compared every 1 ms. -/
  | thermalMon (pair a b : Nat)
  /-- LOCKSTEP, R497. A lockstep mismatch in a management controller. -/
  | lockstep (unit : Nat) (agree : Bool)
  /-- CLOCK_MON, R572. Loss of lock or frequency drift of a clock domain, REFCLK_100 loss included. -/
  | clockMon (unit : Nat) (ok : Bool)
  /-- ARM, R507. INJ_CTL action ARM copies target, locator and pattern or is refused. -/
  | arm (ctl : DWord)
  /-- METER_TICK, R533. Every 100 µs the meter books input energy and divides it among domains and accounts. -/
  | meterTick (inputNj : Nat) (domains : List Nat)
  /-- LDG_CONSUMED, R554. Write freeing ledger window slots, taking effect only when it neither lowers nor exceeds produced. -/
  | ldgConsumed (v : DWord)
  /-- FLT_LOG_CONSUMED, R563. Write of the event-log consumer index under its limits. -/
  | fltLogConsumed (v : DWord)
  /-- GET_NONCE, R526. Secure command drawing a new current nonce. -/
  | getNonce (writeOk : Bool)
  /-- UNSEAL, R528. Secure command unsealing: sign pages, lose partitions, erase and open the TAP. -/
  | unseal (tok : Token) (readOk : Bool)
  /-- TEST_AUTH, R527. Secure command granting TEST injection authorisation. -/
  | testAuth (tok : Token) (readOk : Bool)
  /-- ROLLBACK_COMMIT, R523. Secure command advancing the anti-rollback counter. -/
  | rollbackCommit (fuseOk : Bool)
  /-- OWNER_PROVISION, R516. Secure command programming the owner-digest fuse once. -/
  | ownerProvision (modulus : Nat) (readOk fuseOk : Bool)
  /-- FIELD_RETURN, R530. Secure command erasing and blowing seed and field-return fuses. -/
  | fieldReturn (tok : Token) (readOk fuseOk : Bool)
  /-- REVOKE_KEY, R514. Secure command revoking an Irxis key index. -/
  | revokeKey (tok : Token) (readOk fuseOk : Bool)
  /-- EXTEST, R522. TAP instruction EXTEST, only under reset while sealed. -/
  | extest (lands : List Bool)
  /-- DAP, R522. TAP DAP access to memory or PF0 BAR0 when unsealed, else BYPASS. -/
  | dap (dr : BitVec 128)
  /-- ENTDAA, R556. I3C dynamic address assignment. -/
  | entdaa (addr : Nat)
  /-- SET_ENDPOINT_ID, R557. MCTP control Set Endpoint ID. -/
  | setEndpointId (eid : Nat)
  /-- GET_MCTP_VERSION_SUPPORT, R557. MCTP control Get MCTP Version Support. -/
  | getMctpVersionSupport (type : Nat)
  /-- GETPLDMVERSION, R558. PLDM GetPLDMVersion. -/
  | getpldmversion (type : Nat)
  /-- GETPLDMCOMMANDS, R558. PLDM GetPLDMCommands. -/
  | getpldmcommands (type : Nat)
  /-- GETPDR, R558. PLDM GetPDR. -/
  | getpdr (handle : Nat)
  /-- GETSENSORREADING, R559. PLDM numeric sensor reading. -/
  | getsensorreading (id : Nat)
  /-- GETSTATESENSORREADINGS, R559. PLDM state sensor readings. -/
  | getstatesensorreadings (id : Nat)
  /-- GETNUMERICEFFECTERVALUE, R559. PLDM read of the budget effecter. -/
  | getnumericeffectervalue (id : Nat)
  /-- PASSCOMPONENTTABLE, R560. PLDM PassComponentTable, refusing oversized components. -/
  | passcomponenttable (id size : Nat) (stamp : Nat)
  /-- UPDATECOMPONENT, R560. PLDM UpdateComponent erasing the image region and starting data pulls. -/
  | updatecomponent (size : Nat)
  /-- REQUESTFIRMWAREDATA, R560. Response to a RequestFirmwareData transfer written into flash; after the last, verification. -/
  | requestfirmwaredata (offset len : Nat) (image : Image) (last : Bool)
  /-- ACTIVATEFIRMWARE, R560. PLDM ActivateFirmware starts the SZ3 from oasis mode when permitted. -/
  | activatefirmware (env : StartEnv)
  /-- NEGOTIATE_ALGORITHMS, R518. SPDM NEGOTIATE_ALGORITHMS. -/
  | negotiateAlgorithms (offered : Nat)
  /-- GET_CERTIFICATE, R518. SPDM GET_CERTIFICATE. -/
  | getCertificate (slot offset len : Nat)
  /-- CHALLENGE, R520. SPDM CHALLENGE, signed with the identity key when available. -/
  | challenge (slot : Nat) (nonce : BitVec 256)
  /-- GET_MEASUREMENTS, R519. SPDM GET_MEASUREMENTS returning the nine measurements. -/
  | getMeasurements (op : Nat) (nonce : BitVec 256) (sign : Bool)
  /-- PWR_OK_ASSERT, R482. The first assertion of PWR_OK after the management rail comes up arms sag-stage detection and lowest_mv, and with RESET_N already released it begins a start. -/
  | pwrOkAssert (env : StartEnv)
  /-- MATRIX_UNIT_WORK_COMPLETE, R223. Matrix-unit work that a group issued completes after its hold time; this frees the slot and accumulator after EXIT, lets the STEP record be written, and performs MMS and SMX.SUM local accesses. -/
  | matrixUnitWorkComplete (die core sub : Nat)
  /-- PHASE_BOUND, R71. Expiry of a start phase's bound fails the start with PHASE_BOUND. -/
  | phaseBound
  /-- RESET_N_ASSERT, R575. Assertion of RESET_N turns off all rails but management and UCIe PHY, loses open ledger pages and releases THERMTRIP_N. -/
  | resetNAssert
  /-- PWR_OK_DEASSERT, R576. Deassertion of PWR_OK after its first assertion enters sag stage 5 at once. -/
  | pwrOkDeassert
  /-- VIN_RISE, R574. VIN rising through 30 V turns on the management rail and is a cold start that clears seal state and key_lock. -/
  | vinRise
  /-- VIN_LOSS, R581. VIN falling below 30 V loses power as at a reset. -/
  | vinLoss
  /-- LINK_DOWN, R394. Retrain not ended within 1 ms, or host takes link down. -/
  | linkDown
  /-- HOT_RESET, R394. Link hot reset counts as link down and resets configuration space. -/
  | hotReset
  /-- INST_RESET, R430. Foreman command resetting an instance. -/
  | instReset
  /-- INST_FREEZE, R435. Foreman command freezing an instance and writing its open lines as records. -/
  | instFreeze
  /-- INST_SAVE, R436. Foreman command writing the instance state record. -/
  | instSave
  /-- INST_RESTORE, R437. Foreman command restoring a saved instance state record. -/
  | instRestore
  /-- INST_THAW, R438. Foreman command entering records and resuming the instance. -/
  | instThaw
  /-- S2_SET_ROOT, R419. Foreman command setting an instance's stage-2 root. -/
  | s2SetRoot
  /-- S2_INVALIDATE, R421. Foreman command dropping an instance's cached translations. -/
  | s2Invalidate
  /-- STAGE_EXIT, R483. After 1 ms above exit threshold and the prior reversal, a stage is left and reversed. -/
  | stageExit
  /-- FLOW_OK_N_DEASSERT, R485. FLOW_OK_N deasserts; a short deassertion only counts a glitch. -/
  | flowOkNDeassert
  /-- COOLANT_STOP, R485. FLOW_OK_N deasserted 5 ms stops cores, loses every partition and turns off rails. -/
  | coolantStop
  /-- DISARM, R507. INJ_CTL action DISARM disarms the armed injection. -/
  | disarm
  /-- PAGE_WRITE, R551. A closed, signed page is written to the window when a slot is free, raising LDG_PRODUCED. -/
  | pageWrite
  /-- NONCE_EXPIRY, R526. The nonce is cleared 10 s after issue. -/
  | nonceExpiry
  /-- SAMPLE_PRELOAD, R522. TAP instruction SAMPLE/PRELOAD. -/
  | samplePreload
  /-- IDCODE, R522. TAP instruction reading IDCODE. -/
  | idcode
  /-- BYPASS, R522. TAP BYPASS instruction. -/
  | bypass
  /-- PRIVATE_READ, R556. I3C private read returning a pending MCTP packet or NACK. -/
  | privateRead
  /-- GET_ENDPOINT_ID, R557. MCTP control Get Endpoint ID. -/
  | getEndpointId
  /-- GET_ENDPOINT_UUID, R557. MCTP control Get Endpoint UUID. -/
  | getEndpointUuid
  /-- GET_MESSAGE_TYPE_SUPPORT, R557. MCTP control Get Message Type Support. -/
  | getMessageTypeSupport
  /-- GETTID, R558. PLDM GetTID. -/
  | gettid
  /-- GETPLDMTYPES, R558. PLDM GetPLDMTypes. -/
  | getpldmtypes
  /-- GETPDRREPOSITORYINFO, R558. PLDM GetPDRRepositoryInfo. -/
  | getpdrrepositoryinfo
  /-- REQUESTUPDATE, R560. PLDM RequestUpdate entering update mode or refused. -/
  | requestupdate
  /-- GET_VERSION, R518. SPDM GET_VERSION. -/
  | getVersion
  /-- GET_CAPABILITIES, R518. SPDM GET_CAPABILITIES. -/
  | getCapabilities
  /-- GET_DIGESTS, R518. SPDM GET_DIGESTS. -/
  | getDigests
  /-- TIME_TICK, R52. Every 1 µs a time tick carries device time to the data and control planes. -/
  | timeTick
  /-- PPS_IN, R561. A PPS rising edge slews device time toward whole seconds. -/
  | ppsIn
  /-- FLOW_OK_N_ASSERT, R487. Assertion of FLOW_OK_N lets a waiting phase 4 turn on the hub, base and core rails, and ends a deassertion shorter than 5 ms, which only adds 1 to flow_glitches. -/
  | flowOkNAssert
  deriving DecidableEq, Repr

end Sys2Proof
end

