-- ==== Sys2Proof/Config.lean ====
section
/-! DEFINITION. What one part fixes and the spec leaves open: free values. None has a body, so that a statement
holds whatever they are. Each is named in the assumption log. -/

namespace Sys2Proof

/-- CVT.UNPACK of a 64-bit source format, where 32 ÷ w is 0 (R184), or of a 32-bit integer that FP32 does not
hold (R184 names no rounding): source code, the register a, element selector. [DESIGN CHOICE, log 13] -/
opaque Config.unpackOpen : Nat → Word → Word → Word

/-- What the decoder gives for a codeword with three or more symbols in error (R311): none when it detects it, else
the data it delivers as corrected. Applied to the number of a free value. [DESIGN CHOICE, log 22] -/
opaque Config.manyErrors : Nat → Option (BitVec 256)

/-- The symbol mask reported for three or more symbols in error (R315): those located, or 0. [DESIGN CHOICE, log 22] -/
opaque Config.manyMask : Nat → BitVec 36

/-- Whether the controller locates the two symbols it finds in error and reports their mask; else it reports 0 (R315). [DESIGN CHOICE, log 22] -/
opaque Config.twoLocated : Nat → Bool

/-- The pc of the STEP record of a group that the step has ended (R124): no next instruction exists. [DESIGN CHOICE, log 48] -/
opaque Config.recordPc : Nat → BitVec 56

/-- The lane whose value a debug read shows for a special register that differs by lane (R353). [DESIGN CHOICE, log 48] -/
opaque Config.debugLane : Nat → Fin 32

/-- A piece of a copy whose source the same transfer rewrites through another address (R352). [DESIGN CHOICE, log 26] -/
opaque Config.overlapData : Nat → LineData

/-- Places of the peer's receive buffer beyond the first, in flits: of BULK, or of CTRL (R450). [DESIGN CHOICE, log 35] -/
opaque Config.seifBuffer : Bool → Nat

/-- The step above 550 mV, in units of 5 mV, of the highest setpoint that keeps a power limit (R473): the spec gives no
relation between setpoint and power. [DESIGN CHOICE, log 38] -/
opaque Config.powerLevel : Nat → Nat

/-- What the pace of a core rail's half has above the minimum of R468, in M slots/s: rail, mV, °C. [DESIGN CHOICE, log 40] -/
opaque Config.paceMargin : Nat → Nat → Nat → Nat

/-- Nominal voltage in mV of a fixed rail, by rail number (R466, R493). [DESIGN CHOICE, log 44] -/
opaque Config.railNominal : Nat → Nat

/-- The syndrome that a SEC-DED code gives (R502). [DESIGN CHOICE, log 43] -/
opaque Config.syndrome : Nat → BitVec 8

/-- What becomes of three or more wrong bits in one word (R508): 0 detected, 1 corrected to a wrong value, else
unreported. [DESIGN CHOICE, log 43] -/
opaque Config.manyBits : Nat → Nat

/-- A nonce of the assayer's random source (R526). [DESIGN CHOICE, log 51] -/
opaque Config.nonce : Nat → BitVec 256

/-- A register of the CXL component block, whose layout is that of CXL 3.1 and not the spec's (13 R398, R407): number
of a free value, offset. [DESIGN CHOICE, log 30] -/
opaque Config.cxlRegister : Nat → Nat → Nat

/-- What the debug port reads where no memory answers (18 R522): number of a free value. [DESIGN CHOICE, log 54] -/
opaque Config.dapOpen : Nat → DWord

/-- What the physical tests find in a start that a write through the debug port begins (18 R522): number of a free
value. [DESIGN CHOICE, log 50] -/
opaque Config.startEnv : Nat → StartEnv

/-- The levels of the lands that the boundary register captures (18 R522). [DESIGN CHOICE, log 54] -/
opaque Config.lands : Nat → List Bool

/-- Which fuses a programming that failed has blown, of those it was to blow (R523, R524): a free value's number. [DESIGN CHOICE, log 53] -/
opaque Config.fuseBits : Nat → BitVec 512

/-- An RSASSA-PSS signature with the identity key (R520, R549): a random salt enters it. [DESIGN CHOICE, log 51] -/
opaque Config.signature : Nat → BitVec 4096

/-- The Irxis public moduli of indices 0-3 that the model's part holds after manufacture: the spec gives no value
(DESIGN CHOICE). [DESIGN CHOICE, log 2] -/
def Config.irxisModuli : List Nat :=
  [0xDD48D66A52E01B599BFED30D967D16B694AFBC15B1EBD8B27C801147163AB5078D00D75289E86A101C5DD5C9ADD5AB8577BE16E4500A8C0A4B6E66A7BB6E32F8F1C2616540D2CB1F503D388EE93FC31E6725A43CDC11D36587B600BCA723366BC8831C1E2B8E6486C1FB94E0656E40622555D6D2DA32C97C86E102A1F085561534AE03EDBA31314224FA0CD432EAED678A674E73F13B8CDADB9657C0683AF9D01BD6399205A93F4EB751238CA4FC19A02EDD192B9BC8D1EA8ABF80771E1800F938AD5B59B7DB7325DD34C999099453D97541585D3E622ED675ECD529F1FC653D25926C1B2E859F0C5293DE0985D42274A8F985D8A6CCEEAC0C3B543320B38CA8B228D71792E14A176570BAA5A09F54AAE70CBB486084DED80DF14421243D5A4EEFCD2BA2D797980EBDA1937291907ACE23E350BB05625EA99BB879407CE8CC6F97F8B9E72E6A33D48BD94B7E4F38A574F5DD9CEAE686CF8AC0995EC7C765C13C98F589387CD04BC03A0A34D835AB6C5E2EA01C7EEF390EF7D1AAEDA7BEE5595CE59CF216228E934CF3038665090B816C84A8C487239B1064F99055D4DA08FB448239C040C211D4397C9D071705D95F554FE84148D0C0363676FC21186F9E3F2C70D065191B450217CD02B9AAC5380524CBFDE5F16B28A268F7DA70086E0A7BD666EFD0BFE2C4DACF17618D4CB77FE3DBA4C5B7217C5F7367C12ACD3BDD23297F,
   0xC096935779AC9062672EC6290EC30F9AF79F1034C150052A15B081479E0FFAF29CC636CFC15CF84C26578F458AA75AA10D009406078C59915E58D94C5DDD9F52369977ACB1F9AAF8E464C4D91A780123DBA876AC418916FD6A2031338DA228C4632745B2D12C58822ADF03B9EFEAE6C02115382763A37016362041DBB6F7F41A70C701915AA2C6559DB1425A97CBF3E4DC625E4F1A919386180D0F0BA440F8A847138E6EB0AFAFFDF8FF7E67BC2BF0F110729D4EB36714C997F960185CC3536F71D72FDB01B666669550BD7FAA8821596D3305413988B4FB7B803B6499298B78E1AFD5BF0A2FC9B89C8E7E007BC8A03356E83D46389AA81D98EA5623A23B0ED72925C21225D57F6B0DD3B0A70DD3C4DEF3786DC35898E487689237BCCE9B1BE63D38DDE1C255CB8EA302F856163B5D2B876D8018CD678164A5E67ABE09FFF8EAA9BAA7B638CDC20B1390DD316B9C72F01E53250339633D6DC64EB58782FD89D51B0A23FFC36B22A63C86CABE1AE726845A36DAE23477BDCB7C917FFF11DF7BBCF38F4074D085833B9463F54FC8F2DB85BCBF3A53F462F78FCF7A4C1DCBAC2158C52B3BD2EBCD62CC77AA9105F597C854087585C221522B5CC3AC26E95D4EEAE2E8291392949071EFAADFE9CEB616E7C5438D3EC4E0BE5D2A36B9CF55A6234D401EBB9F6E86428268C8957C933803AB7CF3D40AC81BFED57855349EFB33B836F7,
   0xAA01B55A105747A40F6596977977434717949DD14B5ED9A44A5F9ED2C5A32F53DA6E096B2978B81052A0DC5F2023477BF46514E7C9B0DF68245D5675567E532D41668CF18366109E437675627B9279966EF69E2BC9D42301A58022FC393D89A22DBF7B1E37333FC0145567DE07AB88BD1430D2EF3A3CA42DCCA703E166EF3DA7F640EC7FAAAA3FE630621315124EF1756C369D7165CE1865EF029CA45D4E3AAA2EE26DBAC1421F17BA70D69C6B3834FA4EF0B4FB640981BCD92D38B844559DA3A954F01DC3AC1BFAC60F812AF806284BD7E1B6FAB13B718A3D8FC697F5A2D09BAA82089C2CE5CD8B87D8A21BE5D4EB4DEF792BD0FB6053271410AF861C2FF2830655100182238C3F94CC5646C5A4FA90A9BD83E2F6225603A5081DE16E529595262AE8DC2F9D240E0785E7C2BC0F40EDE1EB5C9975D660E7ABBF0349671FAD3A98DA3D78FDE7E7963BAFF1C166DE1A69A7059F38AFCA004BAFEE2349963842ECA37D697B31231AA8FF8E5A8A89C6E4934583344BDA9F466BB6D8E1247033E8C9BE768262FB3EEA57CE6F022F8C0D134F24D4681CE43902C694E0DF1B825730419A17128D07C71B86B348374CB71905A8EBC65B044723481CD7B4B7D6F426AF50C7AD3A7ECE9D95AE47556AD2E99CE0982997C4C2CB9904D2AB237F2CC833600D69FA983FDF05238595CB4AAD154FC3828237A6834A96EECE7012D44C24DF7EF7,
   0xAF9FD4437B6CEC79EF40FA6CD5070650465E8444220836E8275468FD8A63360A8A943DBCD985C26AE2BA51DF1A11DE703AC2B8891B807D96433C39EC0C17776867205AE39DD33DB27273F2F67559CA656A61797BBF7FFD65BB05DB546E21483F1DF67F08A458A0555A002AE433DEF8D05AA6287B396E8748EF2838150603688FED28998DEC8E9A7078642180ED79A2709A762077EBE16BEC91B566F7118408729258A6DDFC2EA08825B79BF9189AC305B2887B9B2F8AE2D3A5BBDD70488B247068E1B250AF8E93893AE64B09125BEB3635865A6E45FB0FF2793EB304797260744AF005A438ED3577E072A8F28FD9D01062B6EB7DE7C6479FE95713559A3862675682DB9DEEFB50449349ACAE13461ABFCBF4B224D62933ACFEE6080FE1F63F5012585E07D8FEDAB596F874E85C3DEA37BA865649E66D504EA0E63856459CE6A67D2B42D7F45A9F1318D3EF088C63DA670C9D70B7C4F943B7CB12C79FA00A882507DFEE9E7EED21D9349EAA1B30ABE1265C2846AF742230F7FD9FC99ADE7DFE54830C1D870A2DAD22D775A40731DA0B193FCE0E94EDB21B9B82CA0B366E81E876EB3466482C888885C16C0ABBA7A6A5BF24CA52B66062C99CF69AA9959A79825437A86AEC86C99C7716DBA8F56C522DB59D8FCFAD3EEEC2F4725FABE6D0C5139C5CD5FF44EC0032A6DF0F64F92A01F1E0EA5F0737C14EEEC99146DC9307D8DCB9]

/-- Digest of the assayer and foreman ROM (R519). [DESIGN CHOICE, log 51] -/
opaque Config.romDigest : Digest

/-- The device certificate chain (R513). [DESIGN CHOICE, log 51] -/
opaque Config.certChain : List Byte

/-- The versions reported for a message type of MCTP, and for a PLDM type (20 R557, R558): those of the DMTF standards. [PRESUMED, log 57] -/
opaque Config.mctpVersions : Nat → List Nat
/-- [PRESUMED, log 57] -/
opaque Config.pldmVersions : Nat → List Nat

/-- The terminus identifier (20 R558). [PRESUMED, log 57] -/
opaque Config.tid : Nat

/-- The endpoint UUID (R557). [PRESUMED, log 57] -/
opaque Config.uuid : BitVec 128

end Sys2Proof
end

