-- ==== Sys2Proof/Machine/Ops.lean ====
section
/-! DEFINITION. Named operations over sparse data, bytes and bit fields, used by every family. A sparse list has
strictly rising keys and no entry equal to its default value, so that equal contents are equal data. -/

namespace Sys2Proof.Machine

/-! ## Sparse data -/

/-- The value at a key, the default where the list has none. -/
def sget {α : Type} (dflt : α) (l : Sparse α) (k : Nat) : α :=
  match l with
  | [] => dflt
  | (k', v) :: rest => if k' = k then v else sget dflt rest k

/-- The value at a key, if listed. -/
def sfind {α : Type} (l : Sparse α) (k : Nat) : Option α :=
  match l with
  | [] => none
  | (k', v) :: rest => if k' = k then some v else sfind rest k

/-- The list without a key. -/
def sdel {α : Type} (l : Sparse α) (k : Nat) : Sparse α := l.filter (fun e => e.1 != k)

/-- The list with a key listed. -/
def sput {α : Type} (l : Sparse α) (k : Nat) (x : α) : Sparse α :=
  match l with
  | [] => [(k, x)]
  | (k', v) :: rest =>
    if k' = k then (k, x) :: rest
    else if k < k' then (k, x) :: (k', v) :: rest
    else (k', v) :: sput rest k x

/-- A write: a value equal to the default removes the entry. -/
def sset {α : Type} [DecidableEq α] (dflt : α) (l : Sparse α) (k : Nat) (x : α) : Sparse α :=
  if x = dflt then sdel l k else sput l k x

/-- The canonical form: keys strictly rising from `lo`, no entry equal to the default. -/
def scanonFrom {α : Type} [DecidableEq α] (dflt : α) : Nat → Sparse α → Bool
  | _, [] => true
  | lo, (k, v) :: rest => decide (lo ≤ k) && decide (v ≠ dflt) && scanonFrom dflt (k + 1) rest

def scanon {α : Type} [DecidableEq α] (dflt : α) (l : Sparse α) : Bool := scanonFrom dflt 0 l

/-! ## Device memory: bytes by device physical address; an unlisted byte reads 0 (02 R70) -/

abbrev Mem := List Host.Cell

/-- One byte of memory. -/
def Mem.read (m : Mem) (a : Nat) : Byte := sget 0#8 m a

/-- A write of one byte. -/
def Mem.write (m : Mem) (a : Nat) (b : Byte) : Mem := sset 0#8 m a b

/-- The canonical form of memory: addresses strictly rising, no entry equal to 0. -/
def Mem.wf (m : Mem) : Bool := scanon 0#8 m

/-- `n` bytes from `a`, as a number, the byte at `a` lowest (00 R22). -/
def Mem.readNat (m : Mem) (a : Nat) : Nat → Nat
  | 0 => 0
  | n + 1 => (m.read a).toNat + 256 * Mem.readNat m (a + 1) n

/-- The low `n` bytes of a number from `a` (00 R22). -/
def Mem.writeNat (m : Mem) (a : Nat) : Nat → Nat → Mem
  | 0, _ => m
  | n + 1, v => Mem.writeNat (m.write a (BitVec.ofNat 8 v)) (a + 1) n (v / 256)

/-- Zeroes `n` bytes from `a`: removes the listed ones. -/
def Mem.zero (m : Mem) (a n : Nat) : Mem := m.filter (fun c => decide (c.1 < a) || decide (a + n ≤ c.1))

/-! ## Bytes of a line or a number -/

/-- Byte `k` of a number. -/
def byteOf (v k : Nat) : Byte := BitVec.ofNat 8 (v >>> (8 * k))

/-- `len` bytes of a number from byte `k`. -/
def bytesAt (v k len : Nat) : Nat := (v >>> (8 * k)) % 2 ^ (8 * len)

/-- A number with `len` bytes from byte `k` replaced. -/
def putBytes (v k len x : Nat) : Nat :=
  v % 2 ^ (8 * k) + (x % 2 ^ (8 * len)) <<< (8 * k) + (v >>> (8 * (k + len))) <<< (8 * (k + len))

/-- The bytes of a number. -/
def toBytes (v : Nat) : Nat → List Byte
  | 0 => []
  | n + 1 => BitVec.ofNat 8 v :: toBytes (v / 256) n

/-- The number of a list of bytes, the first lowest. -/
def ofBytes : List Byte → Nat
  | [] => 0
  | b :: bs => b.toNat + 256 * ofBytes bs

/-- Bytes of `old` where the mask bit is 0, of `new` where it is 1 (a masked write). -/
def mergeLine (mask : BitVec 128) (old new : LineData) : LineData :=
  (List.range 128).foldl (fun (acc : LineData) k =>
    if mask.getLsbD k then
      BitVec.ofNat 1024 (putBytes acc.toNat k 1 (bytesAt new.toNat k 1))
    else acc) old

/-- Byte masks of sectors (R248). -/
def sectorMask (s : BitVec 4) : BitVec 128 :=
  (List.range 4).foldl (fun acc k =>
    if s.getLsbD k then acc ||| ((0xFFFFFFFF#128) <<< (32 * k)) else acc) 0

/-- Sectors that a byte mask touches. -/
def sectorsOf (m : BitVec 128) : BitVec 4 :=
  (List.range 4).foldl (fun acc k =>
    if (m >>> (32 * k)) &&& 0xFFFFFFFF#128 ≠ 0 then acc ||| (1#4 <<< k) else acc) 0

/-- Sectors that a byte mask covers whole. -/
def sectorsCovered (m : BitVec 128) : BitVec 4 :=
  (List.range 4).foldl (fun acc k =>
    if (m >>> (32 * k)) &&& 0xFFFFFFFF#128 = 0xFFFFFFFF#128 then acc ||| (1#4 <<< k) else acc) 0

/-- A byte mask of `len` bytes from byte `k`. -/
def byteMask (k len : Nat) : BitVec 128 := BitVec.ofNat 128 ((2 ^ len - 1) <<< k)

/-! ## Lanes -/

/-- The lanes of a mask in ascending order. -/
def lanesOf (m : Lanes) : List Nat := (List.range 32).filter (fun l => m.getLsbD l)

/-- The mask of one lane. -/
def laneBit (l : Nat) : Lanes := 1#32 <<< l

/-- The lowest-numbered lane of a mask. -/
def lowLane (m : Lanes) : Nat := (lanesOf m).headD 0

/-! ## Small helpers -/

/-- A signed field of `w` bits as an integer. -/
def signed (w v : Nat) : Int :=
  if (v % 2 ^ w).testBit (w - 1) then ((v % 2 ^ w : Nat) : Int) - (2 ^ w : Nat) else (v % 2 ^ w : Nat)

/-- Replaces the element at a position. -/
def lset {α : Type} (l : List α) (n : Nat) (x : α) : List α := l.set n x

/-- Applies a function to the first element that satisfies a test. -/
def updFirst {α : Type} (p : α → Bool) (f : α → α) : List α → List α
  | [] => []
  | x :: xs => if p x then f x :: xs else x :: updFirst p f xs

/-- The exclusive OR of the eight bytes of a 64-bit number (R253). -/
def fold8 (x : Nat) : Nat :=
  (List.range 8).foldl (fun y i => y ^^^ ((x >>> (8 * i)) % 256)) 0

end Sys2Proof.Machine
end

