-- ==== Sys2Proof/Machine/StateCore.lean ====
section
/-! DEFINITION. The state of cores, blocks, groups and matrix units (03, 04, 06, 07). Every structure is plain data. -/

namespace Sys2Proof.Machine

/-- Where a path of a group stands (R107-R113, R163). -/
inductive PathStatus where
  /-- The path that runs. -/
  | running
  /-- Ready, waiting since the given stamp. -/
  | ready (since : Nat)
  /-- Parked at the point on top of its stack; the count of R113 when it parked. -/
  | parked (spins : Nat)
  /-- Held at a SYNC at its pc, with its mask (R110). -/
  | heldSync (mask : Lanes)
  | heldBlock
  | heldCluster
  deriving DecidableEq, Repr

/-- A path: its lanes, its next instruction and the reconvergence points it carries, top first (R107). -/
structure Path where
  mask   : Lanes
  pc     : Nat
  points : List Nat := []
  status : PathStatus
  deriving DecidableEq, Repr

/-- A load that has not obtained all its values: the lanes still waiting, each with its address. -/
structure PendLoad where
  /-- Request number. -/
  id      : Nat
  /-- The group's key. -/
  gkey    : Nat
  lanes   : Lanes
  /-- Destination register, uniform or per-thread. -/
  uni     : Bool
  dst     : Nat
  width   : Nat
  sem     : Nat
  scope   : Nat
  hint    : Nat
  /-- No epoch increment since the request left: its line may be installed in the L1 (R237). -/
  fill    : Bool
  /-- Lane, host line?, physical address. -/
  waiting : List (Nat × Bool × Nat)
  deriving DecidableEq, Repr

/-- What an access in flight from a core is. -/
inductive OutKind where
  | store | atomic | red
  deriving DecidableEq, Repr

/-- A store, atomic or contribution of a core that has not been answered (R238). -/
structure OutAccess where
  id     : Nat
  kind   : OutKind
  gkey   : Nat
  /-- Queue and index of its task. -/
  q      : Nat
  i      : Nat
  lanes  : Lanes
  host   : Bool
  line   : Nat
  sem    : Nat
  scope  : Nat
  /-- Destination of an atomic's old values: uniform?, register, width in bytes; none for noret. -/
  dst    : Option (Bool × Nat × Nat) := none
  /-- When it was sent, and whether a HELD has stopped its timer (R280, R295). -/
  sent   : Nat := 0
  held   : Bool := false
  deriving DecidableEq, Repr

/-- A bulk copy in progress (R155). Local places are a block, as core key · 32 + slot, and an offset. -/
structure BulkCopy where
  id      : Nat
  gkey    : Nat
  /-- Group slot that issued it. -/
  origin  : Nat
  part    : Nat
  acct    : Option Nat := none
  /-- Block whose local memory it uses, and the offset there. -/
  block   : Nat
  loc     : Nat
  /-- To local memory (G2L). -/
  toLocal : Bool
  /-- The global side in order: host memory?, physical address, bytes. -/
  segs    : List (Bool × Nat × Nat)
  /-- Its completion counter. -/
  cblock  : Nat
  counter : Nat
  /-- Queue and index of its task. -/
  q       : Nat
  i       : Nat
  deriving DecidableEq, Repr

/-- A prefetch on its way to the L1 (R236); `fill` as for a load. -/
structure Prefetch where
  id    : Nat
  host  : Bool
  line  : Nat
  fill  : Bool
  deriving DecidableEq, Repr

/-- A halted group (R116, R119): the lanes of the path that hit the BKPT or took the step. -/
structure Halt where
  active : Lanes
  deriving DecidableEq, Repr

/-- A resident group (R85). -/
structure Group where
  /-- Queue and index of its task. -/
  q : Nat
  i : Nat
  /-- Block slot on its core, and its number within the block. -/
  block : Nat
  num   : Nat
  /-- n_v and the accumulator store allocation in KiB (R85). -/
  nv  : Nat
  acc : Nat
  /-- v: key register · 32 + lane; an unlisted register reads 0 (R84). -/
  v : Sparse Word := []
  u : Sparse DWord := []
  /-- p0-p7, one mask over the lanes each. -/
  p : Sparse Lanes := []
  /-- sr_flags (R131), sr_seed (R130). -/
  flags : Word := 0
  seed  : DWord := 0
  /-- Lanes that have executed EXIT, absent lanes included (R83, R91). -/
  exited : Lanes := 0
  paths  : List Path := []
  /-- The reconvergence stack: number and pc of every point some path carries (R108). -/
  points : List (Nat × Nat) := []
  nextPoint : Nat := 0
  /-- Stamp of the next path that becomes waiting. -/
  clock : Nat := 0
  /-- Backward branches and YIELDs taken (R113). -/
  spins : Nat := 0
  halted : Option Halt := none
  /-- A step in progress that waits for its matrix-unit work, with the lanes that took it (R223). -/
  stepping : Option Lanes := none
  /-- The accumulator store: key offset ÷ 4. -/
  accStore : Sparse Word := []
  /-- Every lane has executed EXIT; the slot is kept by matrix-unit work or bulk copies. -/
  ended : Bool := false
  deriving DecidableEq, Repr

/-- A block on a core (R88). -/
structure Block where
  slot : Nat
  q : Nat
  i : Nat
  /-- Linear block index (R99). -/
  index : Nat
  /-- Number of the cluster: the linear index of its first block, and the rank in it. -/
  cluster : Nat
  rank : Nat
  /-- ℓ in KiB. -/
  lmem : Nat
  /-- Local memory: an unlisted byte reads 0 (R90). -/
  loc : Sparse Byte := []
  groups : Nat
  ended : Bool := false
  /-- Ended by DEBUG_KILL, a timeout or a destruction (R120). -/
  killed : Bool := false
  deriving DecidableEq, Repr

/-- A line in an L1 (R236, R237). -/
structure L1Line where
  host  : Bool
  line  : Nat
  valid : BitVec 4
  data  : LineData
  epoch : BitVec 8
  used  : Nat
  deriving DecidableEq, Repr

/-- A line of a read-only cache with the release number it records (R239): instructions, constants. -/
structure RoLine where
  addr : Nat
  data : LineData
  release : Nat
  deriving DecidableEq, Repr

/-- A core (R89, R236-R239). -/
structure Core where
  /-- KiB of local memory of the split in force. -/
  split  : Nat := 256
  blocks : List Block := []
  l1     : List L1Line := []
  epoch  : BitVec 8 := 0
  useClock : Nat := 0
  loads  : List PendLoad := []
  prefetches : List Prefetch := []
  outs   : List OutAccess := []
  copies : List BulkCopy := []
  ro     : List RoLine := []
  /-- Highest release number learned (R239). -/
  release : Nat := 0
  /-- Generation of each group slot, key sub-core · 16 + slot (R125). -/
  gens : Sparse Nat := []
  /-- Issue slots used (20 R564). -/
  issued : Nat := 0
  deriving DecidableEq, Repr

/-- The sources of a matrix-class instruction, as read at issue (R199). -/
inductive MatWork where
  /-- Register form: opcode, mod, A, B and C octets as words by register · 32 + lane; `c` is none when the octet is
  the result of an earlier work still in the queue. Destination d. -/
  | mma (op : Nat) (mod : BitVec 11) (a b : List Word) (sa sb : List Word) (c : Option (List Word)) (creg : Nat) (ut : DWord) (d : Nat)
  | mms (mod : BitVec 11) (dd da db dc ut : DWord)
  | accLd (desc : DWord) (d : Nat)
  | accSt (desc : DWord) (b : List Word)
  | accZero (desc : DWord)
  | smxMax (mod : BitVec 11) (dd da db : DWord)
  | smxSum (mod : BitVec 11) (dd da db : DWord) (rho : Word)
  deriving DecidableEq, Repr

/-- One instruction waiting for, or holding, a matrix unit (R200). `noRaise` are the flags that a MOV.TOSR issued
after it has cleared (R132). -/
structure MatEntry where
  gkey : Nat
  work : MatWork
  noRaise : Word := 0
  deriving DecidableEq, Repr

end Sys2Proof.Machine
end

