-- ==== Sys2Proof/Machine/GroupOps.lean ====
section
/-! DEFINITION. Operations on one group: its register files (04 R126-R132) and its paths (03 R107-R114, 04 R163). -/

namespace Sys2Proof.Machine

/-! ## Registers -/

/-- v(reg) of a lane (R126). -/
def Group.readV (g : Group) (reg lane : Nat) : Word := sget 0#32 g.v (reg * 32 + lane)

def Group.writeV (g : Group) (reg lane : Nat) (x : Word) : Group :=
  { g with v := sset 0#32 g.v (reg * 32 + lane) x }

/-- `n` registers of a lane from `reg`, the first lowest (R127). -/
def Group.readVs (g : Group) (reg lane : Nat) : Nat → Nat
  | 0 => 0
  | n + 1 => (g.readV reg lane).toNat + 2 ^ 32 * Group.readVs g (reg + 1) lane n

def Group.writeVs (g : Group) (reg lane : Nat) : Nat → Nat → Group
  | 0, _ => g
  | n + 1, x => Group.writeVs (g.writeV reg lane (BitVec.ofNat 32 x)) (reg + 1) lane n (x / 2 ^ 32)

/-- u(reg) (R126). -/
def Group.readU (g : Group) (reg : Nat) : DWord := sget 0#64 g.u reg

def Group.writeU (g : Group) (reg : Nat) (x : DWord) : Group := { g with u := sset 0#64 g.u reg x }

/-- p(n), a mask over the lanes (R126). -/
def Group.readP (g : Group) (n : Nat) : Lanes := sget 0#32 g.p n

/-- Writes p(n) in the lanes of `who`. -/
def Group.writeP (g : Group) (n : Nat) (who val : Lanes) : Group :=
  { g with p := sset 0#32 g.p n ((g.readP n &&& ~~~who) ||| (val &&& who)) }

/-- Raises sticky flags (R131, R196). -/
def Group.raise (g : Group) (f : Word) : Group := { g with flags := g.flags ||| f }

/-! ## Paths -/

def Path.isRunning (p : Path) : Bool := match p.status with | .running => true | _ => false
def Path.isReady (p : Path) : Bool := match p.status with | .ready _ => true | _ => false
def Path.isParked (p : Path) : Bool := match p.status with | .parked _ => true | _ => false

/-- The running path. -/
def Group.running (g : Group) : Option Path := g.paths.find? Path.isRunning

/-- The paths but the running one. -/
def Group.others (g : Group) : List Path := g.paths.filter (fun p => !p.isRunning)

/-- The running path replaced. -/
def Group.setRunning (g : Group) (p : Path) : Group :=
  { g with paths := g.paths.map (fun q => if q.isRunning then p else q) }

/-- A path that becomes ready now, waiting behind all others (R111). [DEDUCED, log 8] -/
def Group.addReady (g : Group) (p : Path) : Group :=
  { g with paths := g.paths ++ [{ p with status := .ready g.clock }], clock := g.clock + 1 }

/-- The pc of a reconvergence point. -/
def Group.pointPc (g : Group) (t : Nat) : Option Nat :=
  (g.points.find? (fun x => x.1 == t)).map (·.2)

/-- Forgets the points that no path carries (R108). -/
def Group.prunePoints (g : Group) : Group :=
  { g with points := g.points.filter (fun x => g.paths.any (fun p => p.points.contains x.1)) }

/-- The merge of R109 at point `t`, when every path that carries it has parked there: one path without the point,
ready behind all others. [DEDUCED, log 8] -/
def Group.mergeAt (g : Group) (t : Nat) : Group :=
  let carriers := g.paths.filter (fun p => p.points.contains t)
  match carriers with
  | [] => g
  | c :: _ =>
    if carriers.all (fun p => p.isParked && p.points.head? == some t) then
      let mask := carriers.foldl (fun m p => m ||| p.mask) 0
      let rest := g.paths.filter (fun p => !p.points.contains t)
      { g with paths := rest }.addReady { mask := mask, pc := (g.pointPc t).getD 0, points := c.points.tail, status := .running }
    else g

/-- The common part of two stacks of points, counted from the bottom; the lists hold the top first (R110). -/
def commonPoints (a b : List Nat) : List Nat :=
  let a' := a.reverse
  let b' := b.reverse
  (((a'.zip b').takeWhile (fun x => x.1 == x.2)).map (·.1)).reverse

/-- Whether a path is held at the SYNC at `pc`. -/
def Path.heldAt (pc : Nat) (p : Path) : Bool :=
  match p.status with
  | .heldSync _ => p.pc == pc
  | _ => false

/-- The mask of a held path: its own lanes always count (R110). -/
def Path.syncMask (p : Path) : Lanes :=
  match p.status with
  | .heldSync m => m ||| p.mask
  | _ => p.mask

/-- One merge of R110 at the SYNC at `pc`, when a path held there is satisfied. [DEDUCED, log 8] -/
def Group.syncAt (g : Group) (pc : Nat) : Option Group :=
  let held := g.paths.filter (Path.heldAt pc)
  let lanes := held.foldl (fun m p => m ||| p.mask) 0
  match held.find? (fun p => p.syncMask &&& ~~~g.exited &&& ~~~lanes == 0) with
  | none => none
  | some s =>
    let m := s.syncMask
    let joins := fun (p : Path) => p.heldAt pc && (p.mask &&& ~~~m == 0)
    let merged := g.paths.filter joins
    let rest := g.paths.filter (fun p => !joins p)
    let mask := merged.foldl (fun x p => x ||| p.mask) 0
    let pts := merged.foldl (fun x p => commonPoints x p.points) s.points
    some ({ g with paths := rest }.addReady { mask := mask, pc := pc + 8, points := pts, status := .running })

/-- Merges at every SYNC that is satisfied. -/
def Group.syncAll (g : Group) : Nat → Group
  | 0 => g
  | fuel + 1 =>
    match g.paths.findSome? (fun p => match p.status with
        | .heldSync _ => g.syncAt p.pc
        | _ => none) with
    | none => g
    | some g' => Group.syncAll g' fuel

/-- Merges at every point whose carriers have all parked. -/
def Group.mergeAll (g : Group) : Nat → Group
  | 0 => g
  | fuel + 1 =>
    match g.points.find? (fun x =>
        let carriers := g.paths.filter (fun p => p.points.contains x.1)
        !carriers.isEmpty && carriers.all (fun p => p.isParked && p.points.head? == some x.1)) with
    | none => g
    | some x => Group.mergeAll (g.mergeAt x.1) fuel

/-- The running path parks where it has reached the point on top of its stack (R109). -/
def Group.parkRunning (g : Group) : Group :=
  match g.running with
  | none => g
  | some p =>
    match p.points.head? with
    | none => g
    | some t => if g.pointPc t = some p.pc then g.setRunning { p with status := .parked g.spins } else g

/-- The ready path that has waited longest starts to run, when none runs (R111). -/
def Group.pick (g : Group) : Group :=
  match g.running with
  | some _ => g
  | none =>
    let best := g.paths.foldl (fun (b : Option Nat) p => match p.status, b with
      | .ready s, none => some s
      | .ready s, some t => some (min s t)
      | _, _ => b) none
    match best with
    | none => g
    | some s => { g with paths := g.paths.map (fun p =>
        if p.status = .ready s then { p with status := .running } else p) }

/-- One round: park, merge, pick. -/
def Group.settleOnce (g : Group) : Group :=
  (((g.parkRunning.mergeAll 64).syncAll 32).mergeAll 64).prunePoints.pick

/-- After each instruction: parks, merges and picks until the running path is not at its point (R109-R111). -/
def Group.settle (g : Group) : Nat → Group
  | 0 => g
  | fuel + 1 =>
    let g' := g.settleOnce
    if g'.paths = g.paths then g' else Group.settle g' fuel

/-- Settling with room for every path and point of a group. -/
def Group.settled (g : Group) : Group := g.settle 130

/-- The running path becomes waiting when another path is ready (R111), and the count of R113 rises. [DEDUCED, log 9] -/
def Group.yieldPath (g : Group) : Group :=
  let g := { g with spins := g.spins + 1 }
  match g.running with
  | none => g
  | some p =>
    if g.paths.any Path.isReady then { g with paths := g.others }.addReady p else g

/-- Whether a parked path has waited for 1,024 backward branches and YIELDs of the others (R113). [DEDUCED, log 9] -/
def Group.breakDue (g : Group) : Bool :=
  g.paths.any (fun p => match p.status with | .parked s => decide (g.spins ≥ s + 1024) | _ => false)

/-- The paths due break away: each drops its point, becomes ready and continues at it (R113). [DEDUCED, log 8] -/
def Group.breakAway (g : Group) : Group :=
  let due := fun (p : Path) => match p.status with | .parked s => decide (g.spins ≥ s + 1024) | _ => false
  let out := g.paths.filter due
  let g0 := { g with paths := g.paths.filter (fun p => !due p) }
  (out.foldl (fun (h : Group) p =>
    let t := p.points.head?.getD 0
    h.addReady { p with pc := (g.pointPc t).getD p.pc, points := p.points.tail }) g0).settled

/-- The running path advances to `pc`. -/
def Group.goto (g : Group) (pc : Nat) : Group :=
  match g.running with
  | none => g
  | some p => g.setRunning { p with pc := pc }

/-- The split of the running path among targets, the first of which runs on; the others wait in order. The point
`coff` is recorded when nonzero and the stack of 64 is not full (R107, R108, R161). [DEDUCED, log 8] -/
def Group.split (g : Group) (parts : List (Lanes × Nat)) (point : Option Nat) : Group :=
  match g.running, parts with
  | some p, (m, pc) :: rest =>
    let (pts, g1) := match point with
      | some t => if g.points.length < 64 then
          (g.nextPoint :: p.points, { g with points := g.points ++ [(g.nextPoint, t)], nextPoint := g.nextPoint + 1 })
        else (p.points, g)
      | none => (p.points, g)
    let g2 := g1.setRunning { p with mask := m, pc := pc, points := pts }
    rest.foldl (fun (h : Group) x => h.addReady { mask := x.1, pc := x.2, points := pts, status := .running }) g2
  | _, _ => g

end Sys2Proof.Machine
end

