-- ==== Sys2Proof/Machine/StateCache.lean ====
section
/-! DEFINITION. The state of slices, sump, messages, channels and the host's coherence traffic (08, 09, 10). -/

namespace Sys2Proof.Machine

/-- A line of 128 bytes: of device memory (device physical address ÷ 128) or of host memory (host address ÷ 128). -/
structure Line where
  host : Bool
  n    : Nat
  deriving DecidableEq, Repr

/-- Operation classes of a reduction line (R284). -/
inductive RedClass where
  | addF | addI32 | addI64 | minF | maxF
  | minS32 | maxS32 | minU32 | maxU32 | minS64 | maxS64 | minU64 | maxU64
  deriving DecidableEq, Repr

/-- The descriptor a reduction line stores (R285, R286): the fence word's device physical address. -/
structure RedDesc where
  cls     : RedClass
  count   : Nat
  fenceEn : Bool
  fence   : Nat
  deriving DecidableEq, Repr

/-- One atomic operation of one lane (R157): lane, byte offset in the line, operands b and c. -/
structure AtomLane where
  lane : Nat
  off  : Nat
  b    : DWord
  c    : DWord
  deriving DecidableEq, Repr

/-- Operation of an atomic; `type` is the code of R142. -/
inductive AtomOp where
  | add | min | max | and | or | xor | exch | cas
  deriving DecidableEq, Repr

/-- The body of a message (R258). -/
inductive MsgBody where
  | rdS (line : Line) (sectors : BitVec 4) (hint : Nat)
  | rdO (line : Line) (sectors : BitVec 4) (hint : Nat)
  | wr (line : Line) (mask : BitVec 128) (data : LineData) (hint : Nat)
  | atm (line : Line) (op : AtomOp) (type : Nat) (stream noret : Bool) (lanes : List AtomLane)
  /-- A contribution: element index and value pairs, or an RCLOSE when `close` (R286). -/
  | redc (line : Line) (desc : RedDesc) (elems : List (Nat × DWord)) (close : Bool)
  | fill (line : Line) (sectors : BitVec 4) (data : LineData) (replica : Bool)
  | ack (line : Line)
  | atmRsp (line : Line) (old : List (Nat × DWord))
  | inv (line : Line)
  | invAck (line : Line)
  | evn (line : Line)
  | held (line : Line)
  deriving DecidableEq, Repr

/-- A message in flight: source and destination, the request it is or answers, the account that caused it
(R539; none when it carries none). -/
structure Msg where
  src  : UnitId
  dst  : UnitId
  rid  : Nat
  acct : Option Nat := none
  body : MsgBody
  deriving DecidableEq, Repr

/-- The directory entry and data of a home way (R255). Keyed by set · 16 + way; an unlisted way is invalid. -/
structure Way where
  line      : Line
  evLast    : Bool := false
  evFirst   : Bool := false
  valid     : BitVec 4 := 0
  dirty     : BitVec 4 := 0
  sharers   : BitVec 8 := 0
  hostS     : Bool := false
  hostE     : Bool := false
  /-- State of a host line (R255). -/
  mesi      : Mesi := .i
  redOpen   : Bool := false
  pinned    : Bool := false
  data      : LineData := 0
  used      : Nat := 0
  deriving DecidableEq, Repr

/-- A replica way (R256). -/
structure Replica where
  line  : Line
  home  : Nat
  valid : BitVec 4
  data  : LineData
  used  : Nat
  deriving DecidableEq, Repr

/-- Who a near slice answers (R262). -/
inductive Requester where
  /-- A load of a core, by request number. -/
  | load (die core : Nat) (id : Nat)
  /-- A prefetch of a core. -/
  | prefetch (die core : Nat) (id : Nat)
  deriving DecidableEq, Repr

/-- An entry of a near slice's miss table (R262). -/
structure MissEntry where
  line    : Line
  /-- The entry's number in the table of 256. -/
  slot    : Nat
  /-- RD_S, not RD_O. -/
  shared  : Bool
  hint    : Nat
  /-- Who waits, each with the sectors it needs. -/
  reqs    : List (Requester × BitVec 4)
  invSeen : Bool := false
  sent    : Nat
  held    : Bool := false
  deriving DecidableEq, Repr

/-- A read waiting at a near slice's input (R262). -/
structure NearReq where
  line    : Line
  sectors : BitVec 4
  hint    : Nat
  req     : Requester
  acct    : Option Nat := none
  deriving DecidableEq, Repr

/-- A back-invalidate snoop outstanding at the host (R272). -/
inductive BiKind where
  | data | inv
  deriving DecidableEq, Repr

/-- A CXL.cache request outstanding at the host (R274). -/
inductive D2hKind where
  | rdShared | rdOwn | rdOwnNoData
  deriving DecidableEq, Repr

/-- What the transaction on a line waits for: the busy state of its way (R255, R265-R268). `channel` holds the
sectors being read; `victim` is set when the way is being freed under R268. -/
structure Await where
  line    : Line
  mte     : Nat
  inv     : BitVec 8 := 0
  bi      : Option BiKind := none
  channel : BitVec 4 := 0
  d2h     : Option D2hKind := none
  victim  : Bool := false
  /-- Device time in ns when each kind was sent. -/
  invAt   : Nat := 0
  biAt    : Nat := 0
  chAt    : Nat := 0
  d2hAt   : Nat := 0
  deriving DecidableEq, Repr

/-- A host snoop (R274). -/
inductive SnpKind where
  | data | inv | cur
  deriving DecidableEq, Repr

/-- A request at a home or proxy slice (R267). [DEDUCED, log 18] -/
inductive HomeKind where
  | rdS (sectors : BitVec 4) (hint : Nat)
  | rdO (sectors : BitVec 4) (hint : Nat)
  | wr (mask : BitVec 128) (data : LineData) (hint : Nat)
  | atm (op : AtomOp) (type : Nat) (stream noret : Bool) (lanes : List AtomLane)
  | redc (desc : RedDesc) (elems : List (Nat × DWord)) (close : Bool)
  /-- A load or prefetch of a core of the home stack, served without a message. -/
  | near (req : Requester) (sectors : BitVec 4) (hint : Nat)
  /-- A host read of a half line; without data for MemInv. -/
  | hostRd (mv : Meta) (half : Nat) (withData : Bool)
  | hostWr (mask : BitVec 128) (data : LineData) (mv : Meta)
  | snoop (k : SnpKind)
  deriving DecidableEq, Repr

structure HomeReq where
  rid  : Nat
  src  : UnitId
  acct : Option Nat := none
  line : Line
  kind : HomeKind
  arrived : Nat
  /-- A HELD has been sent for it (R295). -/
  held : Bool := false
  /-- It has joined the channel read in progress (R262). -/
  joined : Bool := false
  deriving DecidableEq, Repr

/-- A sump slot or a spill record's content (R290, R301): descriptor, count received, element fields by index. -/
structure Shadow where
  line     : Line
  desc     : RedDesc
  received : Nat := 0
  inst     : Nat := 0xFFFF
  fields   : List (BitVec 320)
  last     : Nat := 0
  deriving DecidableEq, Repr

/-- An entry of the spill index (R297): the line and its record. -/
structure SpillEntry where
  line   : Line
  record : Nat
  deriving DecidableEq, Repr

/-- A slice (R248). -/
structure Slice where
  ways     : Sparse Way := []
  replicas : Sparse Replica := []
  miss     : List MissEntry := []
  /-- Reads waiting at the input. -/
  nearq    : List NearReq := []
  waitq    : List HomeReq := []
  awaits   : List Await := []
  slots    : List Shadow := []
  spilled  : List SpillEntry := []
  /-- Fence-word atomics sent by closes and not answered: request, line, when sent, HELD received. -/
  fences   : List (Nat × Line × Nat × Bool) := []
  /-- The order of contributions and of uses. -/
  clock    : Nat := 0
  deriving DecidableEq, Repr

/-- A channel (R306, R313, R314, R318, R321, R323, R327). `corrections`: ca of each scheduled correction write. -/
structure Chan where
  accesses   : Nat := 0
  corrected  : Nat := 0
  lastCorr   : Nat := 0
  refresh    : Nat := 0
  recalLate  : Nat := 0
  /-- Time of the last recalibration, ns. -/
  recalAt    : Nat := 0
  unusable   : Bool := false
  scrubLine  : Nat := 0
  scrubPass  : Nat := 0
  corrections : List Nat := []
  refreshBank : Nat := 0
  postponed   : Nat := 0
  /-- Device time, in s, of the last event-log entry for a correction, plus 1; 0 when none. -/
  logged      : Nat := 0
  deriving DecidableEq, Repr

/-- A CXL.mem answer or a CXL.cache message the host has been given, newest last. [DESIGN CHOICE, log 19] -/
inductive HostMsg where
  /-- Data of a MemRd with the poison indication (R410). -/
  | memData (hpa : Nat) (data : BitVec 512) (poison : Bool)
  | cmp (hpa : Nat)
  | biSnpData (hpa : Nat)
  | biSnpInv (hpa : Nat)
  | d2h (partition : Nat) (addr : Nat) (kind : D2hKind)
  | dirtyEvict (partition addr : Nat) (data : LineData)
  | cleanEvict (partition addr : Nat)
  | snpRsp (partition hpa : Nat) (st : Mesi) (data : Option LineData)
  deriving DecidableEq, Repr

end Sys2Proof.Machine
end

