-- ==== Sys2Proof/Machine/StateCtl.lean ====
section
/-! DEFINITION. The state of fuses, flash, start, the sealed configuration, partitions, queues, tasks, instances and
mailboxes (00, 02, 11, 12, 14). -/

namespace Sys2Proof.Machine

/-! ## Fuses, flash, start -/

/-- What manufacture and the secure commands fuse into the part (00 R3-R6, 01 R34, 18 R511-R530). [DESIGN CHOICE, log 2] -/
structure Fuses where
  /-- 0 IX-SZ3-1280-L; the grade code of R3. -/
  grade       : Nat := 0
  /-- Disabled cores: die, core (R4-R6). -/
  disabled    : List (Nat × Nat) := []
  serial      : DWord := 1
  hubStepping : Nat := 0x4200
  baseStepping : Nat := 0x4200
  /-- Whether the identity key's GCM tag verifies under the fused seed (R512). -/
  keyTagOk    : Bool := true
  /-- Fused anti-rollback count, 0-128 (R517). -/
  counter     : Nat := 0
  /-- Irxis public moduli, by index (R514). -/
  irxisKeys   : List Nat := Config.irxisModuli
  /-- Revoked Irxis key indices (R514). -/
  revoked     : List Nat := []
  /-- SHA-512 of the owner modulus; none while blank (R516). -/
  ownerDigest : Option Digest := none
  /-- Field-return fuse (R530). -/
  fieldReturn : Bool := false
  deriving DecidableEq, Repr

/-- Outcomes of a start-record entry (R69). -/
inductive StartOutcome where
  | inProgress | ready | failed | oasis | imageWritten | cleared
  deriving DecidableEq, Repr

/-- One entry of the start record (R69); `phase` is the last phase its phase_mark records. -/
structure StartEntry where
  outcome    : StartOutcome
  consecFail : Nat
  startCount : Nat
  reason     : Nat
  phase      : Nat := 1
  elapsedMs  : Nat := 0
  imageId    : DWord := 0
  digest     : BitVec 256 := 0
  deriving DecidableEq, Repr

/-- The configuration flash (R62): the image region and the start-record sector, oldest entry first. `image` is none
where the region holds no readable header (erased or partly written). -/
structure Flash where
  image  : Option Image := none
  record : List StartEntry := []
  deriving DecidableEq, Repr

/-- HUB_START_STATUS state (R74), with the states in which no start runs. -/
inductive StartState where
  | idle | starting | ready | retryWait | oasis
  deriving DecidableEq, Repr

/-- The start (R70-R74): the phase running or last reached, the reason of the last failed start, what the phase in
progress still needs. -/
structure StartSt where
  state  : StartState := .idle
  phase  : Nat := 0
  reason : Nat := 0
  consec : Nat := 0
  /-- The physical tests of the start in progress. -/
  env    : StartEnv := {}
  imageId : DWord := 0
  digest  : Digest := 0
  /-- The image that phase 2 has verified. -/
  image   : Option Image := none
  /-- CFG_SLP_STATUS (R45). -/
  slp     : Nat := 0
  /-- security_version of the running image (18 R531). -/
  version : Nat := 0
  /-- The identity key is unwrapped (R512). -/
  keyReady : Bool := false
  deriving DecidableEq, Repr

/-! ## The sealed configuration -/

/-- The configuration of one partition (R39, R65, R77, R249). -/
structure PartConf where
  first    : Nat
  lodes    : Nat
  replicaWays : Nat := 0
  pinWays  : Nat := 0
  spill    : Area := {}
  share    : Nat := 0
  trapDiv  : Bool := false
  trapUnc  : Bool := false
  indirect : Bool := false
  deriving DecidableEq, Repr

/-- The sealed configuration in the planes (R65, R67). -/
structure Conf where
  layout    : Nat := 0
  /-- By partition number. -/
  parts     : List (Option PartConf) := [none, none, none, none]
  slots     : List ImgSlot := []
  bmin      : Nat := 0
  bmax      : Nat := 0
  /-- Rail ceilings in mV by rail. -/
  ceil      : List Nat := []
  baseCeil  : Nat := 0
  coreCap   : Nat := 0
  tj        : Nat := 0
  rate      : Nat := 0
  refreshFloor : Nat := 0
  scrub12   : Bool := false
  moduleId  : Nat := 0
  portMap   : List Word := []
  route     : Sparse (BitVec 16) := []
  /-- Queue block, owning function. -/
  owners    : List (Nat × Nat) := []
  /-- Queue block, timer slots reserved. -/
  timers    : List (Nat × Nat) := []
  timeoutLimit : Nat := 0
  eventLog  : Area := {}
  ledger    : Area := {}
  ledgerInterval : Nat := 0
  idleCount : Nat := 0
  pps       : Bool := false
  traceWidth : Nat := 0
  imageId   : DWord := 0
  cfgDigest : Digest := 0
  deriving DecidableEq, Repr

/-! ## Partitions -/

/-- State of a partition (R387). -/
inductive PartState where
  | absent | running | containing | restarting | down
  deriving DecidableEq, Repr

structure Part where
  state  : PartState := .absent
  cause  : Nat := 0
  losses : Nat := 0
  lossTime : Nat := 0
  /-- Device times of the losses, latest first (third loss within 60 s, R383). -/
  history : List Nat := []
  /-- The last kernel release number given (R239). -/
  release : Nat := 0
  /-- Spills since start (R304). -/
  spills  : Nat := 0
  deriving DecidableEq, Repr

/-! ## Queues and tasks -/

inductive QState where
  | free | active | error | destroying
  deriving DecidableEq, Repr

/-- A queue (R329) and its doorbell registers (R336). Keyed by queue number; an unlisted queue is FREE with every
field 0. -/
structure Queue where
  ringVa   : Nat := 0
  log2     : Nat := 0
  state    : QState := .free
  fn       : Nat := 0
  kernel   : Bool := false
  prio     : Nat := 0
  timeout  : Nat := 0
  binding  : Word := 0
  errStatus : Nat := 0
  producer : Nat := 0
  retired  : Nat := 0
  errIndex : Nat := 0
  squashed : Nat := 0
  bootRing : DWord := 0
  bootCfg  : DWord := 0
  /-- Lowest index whose descriptor has not been read (R342). -/
  fetched  : Nat := 0
  /-- Indices at or above retired that have ended, and whether with OK or an outcome (R354). -/
  ended    : List (Nat × Bool) := []
  deriving DecidableEq, Repr

/-- Where a task stands. -/
inductive TaskState where
  /-- Fetched, behind its cursor's head or its head. -/
  | fetched
  /-- Released to its engine or the quarter (R356). -/
  | released
  /-- Its work is done with a status; TASK_DONE follows (R358). -/
  | done (status : Nat) (info : Nat)
  deriving DecidableEq, Repr

/-- Progress of a released task that waits for messages or for other work. -/
inductive TaskWork where
  | none
  /-- A QUEUE_DESTROY draining its target: squashed, drained, timed out, killed blocks (R378). -/
  | destroy (target squashed drained timedOut killed : Nat)
  /-- A TAG_CLOSE: account key, none once its page is written. -/
  | tagClose (acct : Nat)
  /-- Progress of a copy, a fill, a reduction or a pin: bytes, elements or lines done, and the count for the record. -/
  | moved (done count : Nat)
  /-- A PUT or GET: transfer handle, bytes for which messages have been sent, bytes performed on the target or written
  locally, and whether the remote signal has been sent (15 R455). -/
  | transfer (handle sent bytes : Nat) (signalled : Bool)
  /-- A COLLECTIVE on its engine (15 R459). -/
  | collective
  deriving DecidableEq, Repr

/-- A task read from its ring and not yet complete. -/
structure Task where
  q : Nat
  i : Nat
  /-- The 128 bytes of the descriptor (R345). -/
  desc   : Nat
  state  : TaskState := .fetched
  /-- It is its cursor's head task and has passed R582. -/
  head   : Bool := false
  /-- µs counted (R365). -/
  count  : Nat := 0
  /-- The account bound at release (R537). -/
  acct   : Option Nat := none
  /-- It holds a task-timer slot: from its block's reservation, or from the remainder (R76). -/
  timer  : Option Bool := none
  work   : TaskWork := .none
  /-- Signals already performed at its completion (R358). -/
  stage  : Nat := 0
  deriving DecidableEq, Repr

/-- A contribution of an engine that has not been answered (R286, R295). -/
structure EngOut where
  id   : Nat
  unit : UnitId
  q    : Nat
  i    : Nat
  line : Nat
  host : Bool
  sent : Nat
  held : Bool := false
  deriving DecidableEq, Repr

/-- A released kernel task on its compute engine (R347, R348). -/
structure Run where
  q : Nat
  i : Nat
  part   : Nat
  fn     : Nat
  engine : Nat
  prio   : Nat
  debug  : Bool
  entry  : Nat
  csegVa : Nat
  csegLen : Nat
  /-- The constant block as read at release (R350) and its declared size. -/
  cblock : Nat
  cblockSize : Nat
  dx : Nat
  dy : Nat
  dz : Nat
  cx : Nat
  cy : Nat
  cz : Nat
  gx : Nat
  gy : Nat
  gz : Nat
  nv   : Nat
  acc  : Nat
  lmem : Nat
  split : Nat
  seed : DWord
  release : Nat
  acct : Option Nat
  /-- Next block or cluster to place, counted in blocks or clusters in their order (R104). -/
  next : Nat := 0
  /-- Blocks that ran to EXIT. -/
  done : Nat := 0
  /-- Blocks placed and not ended. -/
  live : Nat := 0
  killed : Bool := false
  deriving DecidableEq, Repr

/-- Progress of an engine's arbitration (R369): the queue it last took from, by level. -/
structure Engine where
  last : List Nat := [0, 0, 0, 0]
  deriving DecidableEq, Repr

/-! ## Instances and mailboxes -/

inductive InstState where
  | absent | running | resetting | freezing | frozen | saving | saved | restoring
  deriving DecidableEq, Repr

/-- A foreman command in progress (R429): tag, sequence, address operand, how far it has come; what that counts is the
command's own. -/
structure InstCmd where
  tag  : Nat
  seq  : Nat
  addr : Nat
  step : Nat := 0
  deriving DecidableEq, Repr

/-- An instance (R415) with the counts of its last freeze (R436). Keyed by instance number. -/
structure Inst where
  state  : InstState := .absent
  lastRc : Nat := 0
  resets : Nat := 0
  s2root : Nat := 0
  recOff : Nat := 0
  recCount : Nat := 0
  fencesDropped : Nat := 0
  killedBlocks : Nat := 0
  /-- A function level reset is in progress: the virtual function answers configuration requests with a retry (R430). -/
  flr    : Bool := false
  /-- The foreman command that has not completed. -/
  cmd    : Option InstCmd := none
  deriving DecidableEq, Repr

/-- A message of a mailbox (R424). -/
structure MailMsg where
  addr : DWord
  len  : Word
  tag  : BitVec 16
  seq  : BitVec 16
  deriving DecidableEq, Repr

/-- An acknowledge slot (R425): seq and rc of a valid acknowledge. -/
abbrev MailAck := Option (BitVec 16 × BitVec 16)

/-- A mailbox: the waiting messages, oldest first, and its sender's acknowledge slots by seq mod 16. -/
structure Mailbox where
  msgs : List MailMsg := []
  acks : Sparse (BitVec 16 × BitVec 16) := []
  deriving DecidableEq, Repr

/-- A debug ring (R122): base as a device virtual address, k, records written. Keyed by
function: instance number, or 0x100 + partition for physical function 0. -/
structure DebugRing where
  base : Nat
  k    : Nat
  producer : Nat := 0
  /-- Records still unwritten, oldest first: the 64 bytes of each but seq (R123). -/
  pending : List Nat := []
  deriving DecidableEq, Repr

/-- A cached translation (R421): function, virtual page, page size log2, result. [DEDUCED, log 16] -/
structure XlateEntry where
  fn    : Nat
  vpage : Nat
  bits  : Nat
  host  : Bool
  wr    : Bool
  page  : Nat
  deriving DecidableEq, Repr

end Sys2Proof.Machine
end

