-- ==== Sys2Proof/Machine/StateFault.lean ====
section
/-! DEFINITION. The state of the fault collector: records, counts, the event log and injection (17, 20 R562-R563). -/

namespace Sys2Proof.Machine

open Sys2Proof

/-- A fault report or event-log entry (R500). -/
structure LogEntry where
  time      : Nat
  kind      : Nat
  detector  : Nat := 0
  injected  : Bool := false
  detected  : Bool := false
  startedLoss : Bool := false
  moduleWide  : Bool := false
  repeats   : Nat := 0
  partition : Nat := 0xFF
  location  : Nat := 0xFF
  unit      : Nat := 0
  cause     : Nat := 0
  detail    : DWord := 0
  deriving DecidableEq, Repr

/-- The fault collector. -/
structure FaultSt where
  /-- FLT_RECENT_k by k (R504). -/
  recent      : Sparse LogEntry := []
  recentCount : Nat := 0
  /-- Masked and detected reports by detector code (R504). -/
  masked      : Sparse Nat := []
  detected    : Sparse Nat := []
  unwritten   : Nat := 0
  hubFault    : Bool := false
  /-- The event log (R562). -/
  logProduced : Nat := 0
  logConsumed : Nat := 0
  overwrites  : Nat := 0
  /-- Detector, unit and second of the last logged masked reports (R501). -/
  lastMasked  : List (Nat × Nat × Nat) := []
  /-- The trace port: the entry that is being sent, and behind it those that wait, oldest first, at most 16 (21 R571). -/
  trace       : List LogEntry := []
  /-- Cycles of TRACE_CLK for which the first of them has been sent. -/
  traceCycles : Nat := 0
  /-- Entries sent whole, oldest first. -/
  traced      : List LogEntry := []
  /-- The FAULT_N land is asserted (R71, R386). -/
  faultN      : Bool := false
  /-- A stopped module: after a coolant stop, thermal trip or hub fault, until the next start (R487, R496). -/
  stopped     : Bool := false
  deriving DecidableEq, Repr

/-- The injection registers and the armed injection (R505-R507). -/
structure Injection where
  /-- TEST authorisation (R505). -/
  testAuth : Bool := false
  target  : DWord := 0
  locator : DWord := 0
  pattern : DWord := 0
  /-- The target, locator and pattern that the last accepted ARM copied. -/
  armed   : Option (DWord × DWord × DWord) := none
  fired   : Bool := false
  /-- Detector and unit of the injection that fired last (R508). -/
  last    : Option (Nat × Nat) := none
  refused : Nat := 0
  count   : Nat := 0
  lastTime : Nat := 0
  deriving DecidableEq, Repr

end Sys2Proof.Machine
end

