-- ==== Sys2Proof/Machine/StateHost.lean ====
section
/-! DEFINITION. The state of the host port: link, configuration space, registers, HDM decoders (13). -/

namespace Sys2Proof.Machine

open Sys2Proof

/-- Bring-up of the link (R392): reset, sideband initialised, parameters exchanged, carrying flits, down. -/
inductive LinkState where
  | reset | sideband | ready | up | down
  deriving DecidableEq, Repr

/-- An HDM decoder (R407). -/
structure Decoder where
  base : Nat := 0
  size : Nat := 0
  committed : Bool := false
  /-- Error Not Committed. -/
  error : Bool := false
  deriving DecidableEq, Repr

/-- The configuration space of one function that the rules name (R395-R397): Memory Space Enable, Bus Master Enable,
D3hot, and for PF0 VF Enable and Cache_Enable. [DESIGN CHOICE, log 30] -/
structure FnCfg where
  memEnable   : Bool := false
  busMaster   : Bool := false
  d3hot       : Bool := false
  vfEnable    : Bool := false
  cacheEnable : Bool := false
  deriving DecidableEq, Repr

/-- How a request of the host port completed (R399, R402, R403). -/
inductive HostCpl where
  | none
  | success
  | abort
  | unsupported
  | retry
  | data (v : DWord)
  deriving DecidableEq, Repr

/-- A CXL.mem request that the host port holds (08 R282, R410, R412). -/
inductive HostReq where
  | rd (hpa : Nat) (mv : Meta) (withData : Bool)
  | wr (hpa : Nat) (data : BitVec 512) (be : BitVec 64) (mv : Meta)
  | clean (hpa : Nat)
  deriving DecidableEq, Repr

/-- The host port. -/
structure HostPort where
  link     : LinkState := .reset
  /-- Modules that carry flits, bit n for module n, and the rate code of R399. -/
  modules  : Nat := 0
  rate     : Nat := 0
  retrains : Nat := 0
  /-- HOST_LINK_REPLAY. -/
  replay   : Nat := 0
  /-- PF0 is function 0, VF k function k. -/
  cfg      : Sparse FnCfg := []
  cacheId  : Nat := 0
  /-- HOST_CACHEID has been written (R406). -/
  cacheIdWritten : Bool := false
  dmwrAborted : Nat := 0
  dmwrDropped : Nat := 0
  memDiscard  : Nat := 0
  decoders : Sparse Decoder := []
  /-- CXL.mem requests held, oldest first. -/
  waiting  : List HostReq := []
  /-- The completion of the last request. -/
  last     : HostCpl := .none
  deriving DecidableEq, Repr

end Sys2Proof.Machine
end

