-- ==== Sys2Proof/Machine/StateLedger.lean ====
section
/-! DEFINITION. The state of the energy ledger: accounts, the open page, a page that waits (19). -/

namespace Sys2Proof.Machine

open Sys2Proof

/-- An account in a page: its ticket (R544). Function codes: 0-255 an instance, 0x100 + p physical function 0,
0x200 HUB, 0x201 LINK, 0x210 + p IDLE, 0x220 + p LOSS (R535). -/
structure Ticket where
  fn       : Nat
  num      : Nat
  tag      : Nat
  energy   : Nat := 0
  total    : Nat := 0
  opened   : Nat := 0
  closed   : Nat := 0
  counts   : Nat := 0
  ticks    : Nat := 0
  openedHere : Bool := false
  final    : Bool := false
  byReset  : Bool := false
  byMigration : Bool := false
  overflow : Bool := false
  lost     : Bool := false
  /-- A TAG_CLOSE has marked the account closing (R538). -/
  closing  : Bool := false
  deriving DecidableEq, Repr

/-- A ledger page (R547). -/
structure Page where
  opened   : Nat := 0
  closed   : Nat := 0
  energy   : Nat := 0
  ticks    : Nat := 0
  injected : Bool := false
  injections : Nat := 0
  suspect  : Bool := false
  lost     : Bool := false
  byUnseal : Bool := false
  atLimit  : Bool := false
  tickets  : List Ticket := []
  /-- Interval in force; the signature made before the key was erased (R528 step 2). -/
  signed   : Option (BitVec 4096) := none
  /-- R479's counts by die and reason: when the page opened; once it has closed, those of the page. -/
  throttle : List Nat := []
  deriving DecidableEq, Repr

/-- The meter's ledger. -/
structure Ledger where
  /-- The start has reached ready and the meter books (R533). -/
  running  : Bool := false
  page     : Page := {}
  /-- Closed pages that wait to be written, oldest first (R552). -/
  waiting  : List Page := []
  residue  : Nat := 0
  produced : Nat := 0
  consumed : Nat := 0
  energy   : Nat := 0
  pagesLost : Nat := 0
  prevRoot : Digest := 0
  suspect  : Bool := false
  /-- The last page was written unsigned (R549). -/
  unsigned : Bool := false
  deriving DecidableEq, Repr

end Sys2Proof.Machine
end

