-- ==== Sys2Proof/Machine/StateMgmt.lean ====
section
/-! DEFINITION. The state of the management interfaces: I3C, MCTP, PLDM, firmware update (20). -/

namespace Sys2Proof.Machine

open Sys2Proof

/-- Completion of a PLDM or MCTP control request. -/
inductive MgmtCode where
  | success | invalidData | notReady | unsupported
  | alreadyInUpdateMode | notInUpdateMode | invalidState | cannotUpdate
  deriving DecidableEq, Repr

/-- Operational state of a sensor or effecter. -/
inductive OpState where
  | enabled | unavailable
  deriving DecidableEq, Repr

/-- The error codes of SPDM that R518 and R520 name, and that of a request whose fields are out of range. -/
inductive SpdmError where
  | unspecified | invalidRequest
  deriving DecidableEq, Repr

/-- An answer that waits for a private read (R556). The encodings are those of the DMTF standards. -/
inductive Reply where
  | done (code : MgmtCode)
  | eid (n : Nat)
  | uuid (v : BitVec 128)
  | versions (type : Nat) (list : List Nat)
  | types (list : List Nat)
  | commands (type : Nat) (list : List Nat)
  | tid (n : Nat)
  /-- A PDR: its record handle, the kind (0 numeric sensor, 1 state sensor, 2 numeric effecter), the sensor's id and
  the handle of the next, 0 for none. -/
  | pdr (handle kind id next : Nat)
  | pdrInfo (count : Nat)
  | reading (op : OpState) (value : Nat)
  | effecter (op : OpState) (pending value : Nat)
  /-- RequestFirmwareData asks the update agent for a piece of the image. -/
  | wantData (offset len : Nat)
  | transferComplete (ok : Bool)
  | verifyComplete (ok : Bool)
  | applyComplete
  | spdmError (e : SpdmError)
  | spdmVersion (major minor : Nat)
  | capabilities (cert chal measSig measFresh : Bool)
  | algorithms (asym hash : Nat)
  | digests (slotMask : Nat) (digest : Digest)
  | certificate (slot offset : Nat) (portion : List Byte) (remainder : Nat)
  | challengeAuth (slot : Nat) (certHash : Digest) (summary : Nat) (signature : Nat)
  | measurements (list : List (Nat × Nat)) (count : Nat) (signature : Option Nat)
  deriving DecidableEq, Repr

/-- Progress of a firmware update (R560). -/
inductive UpdateState where
  | idle
  /-- RequestUpdate accepted. -/
  | learn
  /-- PassComponentTable passed. -/
  | ready
  /-- UpdateComponent accepted: size of the image and bytes received. -/
  | download (size got : Nat)
  deriving DecidableEq, Repr

/-- The management plane's interfaces. -/
structure MgmtSt where
  /-- Dynamic address given by ENTDAA. -/
  addr   : Option Nat := none
  eid    : Nat := 0
  out    : List Reply := []
  /-- The last private read: what it returned, none for a NACK. -/
  last   : Option Reply := none
  update : UpdateState := .idle
  deriving DecidableEq, Repr

end Sys2Proof.Machine
end

