-- ==== Sys2Proof/Machine/StatePower.lean ====
section
/-! DEFINITION. The state of the power controller, the rails and the discrete lands (16, 21). -/

namespace Sys2Proof.Machine

open Sys2Proof

/-- The rails that are on (R466). [DESIGN CHOICE, log 2] -/
structure Rails where
  mgmt : Bool := true
  ucie : Bool := true
  hub  : Bool := false
  core : Bool := false
  base : Bool := false
  mem  : Bool := false
  seif : Bool := false
  deriving DecidableEq, Repr

/-- The input lands and THERMTRIP_N (R569); FAULT_N stands in the fault collector. [DESIGN CHOICE, log 2] -/
structure Pins where
  /-- RESET_N is released (high). -/
  resetN : Bool := false
  pwrOk  : Bool := true
  /-- FLOW_OK_N is asserted (low). -/
  flowOk : Bool := true
  /-- VIN is above 30 V. -/
  vin30  : Bool := true
  /-- THERMTRIP_N is asserted (low). -/
  thermtrip : Bool := false
  deriving DecidableEq, Repr

/-- The power controller. [DESIGN CHOICE, log 2] -/
structure PowerSt where
  rails : Rails := {}
  pins  : Pins := {}
  /-- Stage 5 has turned off the management rail (R576). -/
  locked : Bool := false
  /-- PWR_OK has been asserted since the management rail came on (R482). -/
  armed : Bool := true
  /-- Consecutive samples below the entry threshold of stages 1-5, and above the exit threshold of stages 1-4. -/
  below : List Nat := [0, 0, 0, 0, 0]
  above : List Nat := [0, 0, 0, 0]
  inputMv : Nat := 0
  inputW  : Nat := 0
  inputDa : Nat := 0
  lowest  : Nat := 0
  entries : Nat := 0
  /-- B, the budget stored during a sag stage, the budget of the next period (R471, R80). -/
  budget  : Nat := 0
  stored  : Nat := 0
  next    : Nat := 0
  /-- Power of each partition (R488). -/
  partW   : List Nat := [0, 0, 0, 0]
  /-- By core rail 2d + half: setpoint in mV, reason of R478, thermal ceiling in mV. -/
  set     : List Nat := [0, 0, 0, 0, 0, 0, 0, 0, 0, 0, 0, 0, 0, 0, 0, 0]
  reason  : List Nat := [0, 0, 0, 0, 0, 0, 0, 0, 0, 0, 0, 0, 0, 0, 0, 0]
  thermal : List Nat := [800, 800, 800, 800, 800, 800, 800, 800, 800, 800, 800, 800, 800, 800, 800, 800]
  /-- mV by which the 125 A limit has lowered every core ceiling (R475). -/
  inputDrop : Nat := 0
  /-- Nanoseconds throttled: key 4 · die + reason - 1 (R479). -/
  thr     : Sparse Nat := []
  /-- Last reading of each thermal monitor, °C (R476). -/
  temps   : Sparse Nat := []
  /-- PWR_STOP and PWR_STOP_TIME (R488). -/
  stopCause : Nat := 0
  tjTrip    : Nat := 0
  stopTime  : Nat := 0
  glitches  : Nat := 0
  /-- Device time at which FLOW_OK_N was deasserted. -/
  flowAt    : Nat := 0
  /-- That deassertion has lasted 5 ms. -/
  flowOver  : Bool := false
  deriving DecidableEq, Repr

/-- The PPS input (R561): device time of the first edge and of the last, the error still to be slewed away in ns, and
the tenths of a nanosecond slewed. -/
structure PpsSt where
  first : Option Nat := none
  last  : Nat := 0
  err   : Int := 0
  sub   : Nat := 0
  deriving DecidableEq, Repr

end Sys2Proof.Machine
end

