-- ==== Sys2Proof/Machine/StateSec.lean ====
section
/-! DEFINITION. The state of the assayer, the seal and the test access port (18). -/

namespace Sys2Proof.Machine

open Sys2Proof

/-- The seal state (R521). -/
inductive SealState where
  | sealed | pending | unsealed
  deriving DecidableEq, Repr

/-- The measurements of R519, taken once per start or on entry to oasis mode: 1-9. -/
structure Measurements where
  m : List Nat := [0, 0, 0, 0, 0, 0, 0, 0, 0]
  deriving DecidableEq, Repr

/-- The test access port (R522): the instruction in force, what the last scan shifted out, the DAP data register as the
next Capture-DR gives it, the boundary register, whether EXTEST drives the lands. [DESIGN CHOICE, log 2] -/
structure TapSt where
  ir       : BitVec 8 := 0xFF
  out      : BitVec 128 := 0
  dr       : BitVec 128 := 0
  boundary : List Bool := []
  extest   : Bool := false
  deriving DecidableEq, Repr

/-- An unseal or a field return in progress (R528, R530): the last step done, the sequence of its message, and for a
field return whether its fuses will program. -/
structure UnsealRun where
  step  : Nat
  seq   : Nat
  fuses : Option Bool := none
  deriving DecidableEq, Repr

/-- The assayer. -/
structure SecSt where
  sealSt  : SealState := .sealed
  run     : Option UnsealRun := none
  keyLock : Bool := false
  /-- Unseals completed since the last cold start. -/
  unseals : Nat := 0
  /-- The current nonce and the device time at which it was issued (R526). -/
  nonce   : Option (BitVec 256 × Nat) := none
  meas    : Measurements := {}
  tap     : TapSt := {}
  deriving DecidableEq, Repr

end Sys2Proof.Machine
end

