-- ==== Sys2Proof/Machine/StateSeif.lean ====
section
/-! DEFINITION. The state of the Seif ports, of the transfers that leave by them and of collectives (15). -/

namespace Sys2Proof.Machine

open Sys2Proof

/-- State of a port (R464). -/
inductive PortState where
  | disabled | training | up | mismatch | down
  deriving DecidableEq, Repr

/-- A PAYLOAD flit in the retry buffer (R449). -/
structure SentFlit where
  seq  : Nat
  bulk : Bool
  msgs : List SeifMsg
  deriving DecidableEq, Repr

/-- A flit that has been put on the wire (R447): kind 0 PAYLOAD, 1 NULL, 2 NAK, 3 LANE_CHANGE. -/
structure WireFlit where
  kind : Nat
  seq  : Nat := 0
  ack  : Nat
  bulk : Bool := false
  ctrlCredits : Nat := 0
  bulkCredits : Nat := 0
  msgs : List SeifMsg := []
  /-- An injection has damaged it (17 R507). -/
  damaged : Bool := false
  deriving DecidableEq, Repr

/-- A received message that waits to be performed; `last` when it is the last of its flit's messages for this module,
whose end returns the flit's credit. -/
structure InMsg where
  msg  : SeifMsg
  last : Bool
  deriving DecidableEq, Repr

/-- A Seif port (R441-R450, R464). -/
structure Port where
  state    : PortState := .disabled
  /-- Lanes that carry data now, those chosen in training, those lost until the next start. -/
  lanes    : BitVec 8 := 0
  trained  : BitVec 8 := 0
  lost     : BitVec 8 := 0
  peerModule : Nat := 0
  peerPort : Nat := 0
  retrains : Nat := 0
  /-- A retrain is in progress: the retry buffer is kept. -/
  retraining : Bool := false
  downAt   : Nat := 0
  /-- HUB_SEIF_RETRY, hop_drops, misroutes, HUB_SEIF_WAIT. -/
  resent   : Nat := 0
  hopDrops : Nat := 0
  misroutes : Nat := 0
  wait     : Nat := 0
  /-- Sequence number of the next flit sent, and of the next expected. -/
  txSeq    : Nat := 0
  rxSeq    : Nat := 0
  retry    : List SentFlit := []
  /-- Messages that wait for a credit or for room in the retry buffer. -/
  txq      : List SeifMsg := []
  /-- Flits sent since the buffers of the peer were empty, less the credits it has returned. -/
  ctrlUsed : Nat := 0
  bulkUsed : Nat := 0
  /-- Credits to return with the next flit. -/
  ctrlBack : Nat := 0
  bulkBack : Nat := 0
  /-- Times that the oldest unacknowledged flit has been resent, and flits resent in a window of 1 ms. -/
  oldResent : Nat := 0
  burstAt  : Nat := 0
  burst    : Nat := 0
  /-- Flits sent since the last NULL (R450). -/
  sinceNull : Nat := 0
  ctrlIn   : List InMsg := []
  bulkIn   : List InMsg := []
  /-- Everything sent, newest last. -/
  wire     : List WireFlit := []
  deriving DecidableEq, Repr

/-- A collective in progress (R457-R462). -/
structure Coll where
  q : Nat
  i : Nat
  part   : Nat
  fn     : Nat
  engine : Nat
  commId : Nat
  seq    : Nat
  kind   : Nat
  op     : Nat
  dtype  : Nat
  count  : Nat
  root   : Nat
  /-- Module of each rank, and partition. -/
  ranks  : List (Nat × Nat)
  me     : Nat
  ports  : Nat
  logVa  : Nat
  logK   : Nat
  dst    : Nat
  step   : Nat := 0
  /-- Elements of the working buffer. -/
  buf    : List Nat
  /-- The step's COLL_READY messages have been sent, and when. -/
  began  : Bool := false
  start  : Nat := 0
  /-- COLL_READY messages that have arrived: rank, step. -/
  readies : List (Nat × Nat) := []
  /-- Ranks to which the step's data has been sent. -/
  sentTo : List Nat := []
  /-- Messages of the step received, by rank. -/
  got    : Sparse Nat := []
  /-- Wait by port of the step: time of the first COLL_DATA less `start`, plus 1. -/
  waits  : Sparse Nat := []
  slowest : Nat := 0
  /-- Sum of slowest_wait_ns over the steps. -/
  total  : Nat := 0
  /-- Records of finished steps not yet written: 64 bytes each. -/
  log    : List Nat := []
  deriving DecidableEq, Repr

/-- A COLL_READY or COLL_ABORT for a collective not yet released (R462). -/
structure Early where
  engine : Nat
  part   : Nat
  fn     : Nat
  commId : Nat
  seq    : Nat
  module : Nat
  step   : Nat
  abort  : Bool
  deriving DecidableEq, Repr

/-- What the link group and the engines share. -/
structure SeifSt where
  /-- Handle of the next transfer. -/
  handle : Nat := 0
  /-- Messages sent, for taking ports in turn (R452). -/
  turn   : Nat := 0
  colls  : List Coll := []
  early  : List Early := []
  deriving DecidableEq, Repr

end Sys2Proof.Machine
end

