-- ==== Sys2Proof/Machine/State.lean ====
section
/-! DEFINITION. The state of the block: the queue of waiting commands, the fuses, and the device. -/

namespace Sys2Proof.Machine

/-- The device: everything but the fuses and the waiting commands. [DESIGN CHOICE, log 2] -/
structure Dev where
  /-- The model's own counter of free values: not the spec's. -/
  fresh  : Nat := 0
  /-- The model's own counter of request numbers. -/
  nextId : Nat := 1
  flash  : Flash := {}
  start  : StartSt := {}
  conf   : Conf := {}
  /-- Device time in ns (00 R52). -/
  time   : Nat := 0
  /-- By partition number 0-3. -/
  parts  : Sparse Part := []
  /-- By instance number. -/
  insts  : Sparse Inst := []
  /-- By queue number. -/
  queues : Sparse Queue := []
  tasks  : List Task := []
  runs   : List Run := []
  engOuts : List EngOut := []
  engines : Sparse Engine := []
  /-- By die · 256 + core. -/
  cores  : Sparse Core := []
  /-- By (die · 256 + core) · 64 + sub-core · 16 + slot. -/
  groups : Sparse Group := []
  /-- By (die · 256 + core) · 4 + sub-core, the oldest work first. -/
  munits : Sparse (List MatEntry) := []
  /-- By slice number. -/
  slices : Sparse Slice := []
  /-- By channel number. -/
  chans  : Sparse Chan := []
  /-- Device memory by device physical address. -/
  mem    : List Host.Cell := []
  /-- Messages in flight, oldest first. -/
  net    : List Msg := []
  /-- What the host has been sent. -/
  toHost : List HostMsg := []
  mbox   : Sparse Mailbox := []
  rings  : Sparse DebugRing := []
  xlate  : List XlateEntry := []
  faults : FaultSt := {}
  inj    : Injection := {}
  /-- Lines whose BISnpInv a containment has sent and the host has not answered (R281 step 3). -/
  contBi : List Nat := []
  /-- Activity counts of the meter tick (R539): key domain · 2^32 + account key. -/
  counts : Sparse Nat := []
  host   : HostPort := {}
  ledger : Ledger := {}
  /-- The clock of the coherence timers in ns: device time but for sag stage 4 and 5 (R280, 16 R482). -/
  coh    : Nat := 0
  /-- Sag stage 0-5 (16 R482). -/
  stage  : Nat := 0
  power  : PowerSt := {}
  pps    : PpsSt := {}
  sec    : SecSt := {}
  mgmt   : MgmtSt := {}
  /-- By Seif port. -/
  ports  : Sparse Port := []
  seif   : SeifSt := {}
  /-- Device time at which every channel was last recalibrated by a start or a resumption (10 R322, R324). -/
  recalBase : Nat := 0
  deriving DecidableEq, Repr

/-- The state of the block. -/
structure State where
  /-- The commands that are waiting, first in first out. -/
  pending : List Instr := []
  fuses   : Fuses := {}
  dev     : Dev := {}
  deriving DecidableEq, Repr

/-- Why a step stops the machine: no meaning of this model stops, since the spec gives every command an effect. -/
inductive Fault where
  /-- Raised by nothing: kept as the type of stops (safe). -/
  | none
  deriving DecidableEq, Repr

/-- Why a step has no meaning. -/
inductive Refusal where
  /-- Raised by an arm of exec that has no meaning yet (safe: the model stops). -/
  | notModelled (mnemonic : String)
  deriving DecidableEq, Repr

/-- The block right after reset. [DESIGN CHOICE, log 2] -/
def State.reset : State := {}

end Sys2Proof.Machine
end

