-- ==== Sys2Proof/Machine/DevOps.lean ====
section
/-! DEFINITION. Named operations over the device: its tables, the partition of a unit, homing (08 R252-R253), the
activity counts (19 R539), messages, records of the fault collector (17 R500-R504, 20 R562). -/

namespace Sys2Proof.Machine

/-! ## Tables -/

def coreKey (die core : Nat) : Nat := die * 256 + core
def subKey (die core sub : Nat) : Nat := coreKey die core * 4 + sub
def groupKey (die core sub slot : Nat) : Nat := coreKey die core * 64 + sub * 16 + slot
def gkeyOf (g : GroupRef) : Nat := groupKey g.die g.core g.sub g.slot
/-- Core key, die, sub-core and slot of a group key. -/
def coreOfKey (k : Nat) : Nat := k / 64
def dieOfKey (k : Nat) : Nat := k / 64 / 256
def subOfKey (k : Nat) : Nat := k % 64 / 16
def slotOfKey (k : Nat) : Nat := k % 16

def Dev.core (d : Dev) (k : Nat) : Core := sget {} d.cores k
def Dev.setCore (d : Dev) (k : Nat) (c : Core) : Dev := { d with cores := sset {} d.cores k c }
def Dev.group (d : Dev) (k : Nat) : Option Group := sfind d.groups k
def Dev.setGroup (d : Dev) (k : Nat) (g : Group) : Dev := { d with groups := sput d.groups k g }
def Dev.delGroup (d : Dev) (k : Nat) : Dev := { d with groups := sdel d.groups k }
def Dev.munit (d : Dev) (k : Nat) : List MatEntry := sget [] d.munits k
def Dev.setMunit (d : Dev) (k : Nat) (m : List MatEntry) : Dev := { d with munits := sset [] d.munits k m }
def Dev.slice (d : Dev) (n : Nat) : Slice := sget {} d.slices n
def Dev.setSlice (d : Dev) (n : Nat) (x : Slice) : Dev := { d with slices := sset {} d.slices n x }
def Dev.chan (d : Dev) (n : Nat) : Chan := sget {} d.chans n
def Dev.setChan (d : Dev) (n : Nat) (x : Chan) : Dev := { d with chans := sset {} d.chans n x }
def Dev.queue (d : Dev) (n : Nat) : Queue := sget {} d.queues n
def Dev.setQueue (d : Dev) (n : Nat) (x : Queue) : Dev := { d with queues := sset {} d.queues n x }
def Dev.inst (d : Dev) (n : Nat) : Inst := sget {} d.insts n
def Dev.setInst (d : Dev) (n : Nat) (x : Inst) : Dev := { d with insts := sset {} d.insts n x }
def Dev.part (d : Dev) (p : Nat) : Part := sget {} d.parts p
def Dev.setPart (d : Dev) (p : Nat) (x : Part) : Dev := { d with parts := sset {} d.parts p x }
def Dev.task (d : Dev) (q i : Nat) : Option Task := d.tasks.find? (fun t => t.q == q && t.i == i)
def Dev.setTask (d : Dev) (x : Task) : Dev :=
  { d with tasks := d.tasks.map (fun t => if t.q = x.q ∧ t.i = x.i then x else t) }
def Dev.delTask (d : Dev) (q i : Nat) : Dev := { d with tasks := d.tasks.filter (fun t => !(t.q == q && t.i == i)) }
def Dev.run (d : Dev) (q i : Nat) : Option Run := d.runs.find? (fun t => t.q == q && t.i == i)
def Dev.setRun (d : Dev) (x : Run) : Dev :=
  { d with runs := d.runs.map (fun t => if t.q = x.q ∧ t.i = x.i then x else t) }
def Dev.delRun (d : Dev) (q i : Nat) : Dev := { d with runs := d.runs.filter (fun t => !(t.q == q && t.i == i)) }
def Dev.mailbox (d : Dev) (n : Nat) : Mailbox := sget {} d.mbox n
def Dev.setMailbox (d : Dev) (n : Nat) (x : Mailbox) : Dev := { d with mbox := sset {} d.mbox n x }

/-- The next free value's number, and the device after taking it. -/
def Dev.takeFresh (d : Dev) : Nat × Dev := (d.fresh, { d with fresh := d.fresh + 1 })

/-- A new request number. -/
def Dev.takeId (d : Dev) : Nat × Dev := (d.nextId, { d with nextId := d.nextId + 1 })

/-! ## Partitions, lodes, functions -/

/-- The configuration of partition p. -/
def Dev.pconf (d : Dev) (p : Nat) : Option PartConf := (d.conf.parts.getD p none)

/-- Whether lode n belongs to the partition. -/
def PartConf.hasLode (c : PartConf) (n : Nat) : Bool := decide (c.first ≤ n) && decide (n < c.first + c.lodes)

/-- The partition that holds a lode. -/
def Dev.partOfLode (d : Dev) (n : Nat) : Option Nat :=
  (List.range 4).find? (fun p => match d.pconf p with | some c => c.hasLode n | none => false)

/-- The partition that holds a stack, which is also a compute die and a base die: two stacks a lode. -/
def Dev.partOfStack (d : Dev) (n : Nat) : Option Nat := if n < 8 then d.partOfLode (n / 2) else none

/-- The device physical range of a partition (R252): base and size. -/
def PartConf.base (c : PartConf) : Nat := c.first * 0x6000000000
def PartConf.size (c : PartConf) : Nat := c.lodes * 0x6000000000
def PartConf.owns (c : PartConf) (pa : Nat) : Bool := decide (c.base ≤ pa) && decide (pa < c.base + c.size)
def PartConf.stacks (c : PartConf) : Nat := 2 * c.lodes

/-- Functions: 0-255 an instance, 0x100 + p physical function 0 acting in partition p. The queue table's 0x100 is
completed with the partition of the queue's quarter. -/
def pf0 (p : Nat) : Nat := 0x100 + p

/-- The partition of a queue: its quarter is that of lode q ÷ 8192 (R328). -/
def Dev.partOfQueue (d : Dev) (q : Nat) : Option Nat := d.partOfLode (q / 8192)

/-- The function that owns a queue's block (R328). -/
def Dev.fnOfBlock (d : Dev) (b : Nat) : Option Nat :=
  match d.partOfLode (b / 128) with
  | none => none
  | some p => match d.conf.owners.find? (fun x => x.1 == b) with
    | some x => some x.2
    | none => some (pf0 p)

/-- The partition of a function; instance i lies in lode i ÷ 64. -/
def Dev.partOfFn (d : Dev) (fn : Nat) : Option Nat :=
  if fn ≥ 0x100 then some ((fn - 0x100) % 4) else d.partOfLode (fn / 64)

def Dev.slot (d : Dev) (i : Nat) : Option ImgSlot := d.conf.slots.find? (fun x => x.inst == i)

/-- Whether a partition runs its work (R387). -/
def Dev.partRuns (d : Dev) (p : Nat) : Bool := (d.part p).state == .running

/-! ## Homing -/

/-- The place of a device physical address (R253). -/
structure Home where
  stack   : Nat
  channel : Nat
  slice   : Nat
  ca      : Nat
  set     : Nat
  tag     : Nat
  cl      : Nat
  deriving DecidableEq, Repr

/-- The home of a device physical address in a partition (R253). -/
def homeOf (f ns pa : Nat) : Home :=
  let o := pa - f * 0x6000000000
  let page := o / 4096
  let row := page / ns
  let col := page % ns
  let stack := 2 * f + (col + fold8 row) % ns
  let la := row * 4096 + o % 4096
  let chunk := la / 256
  let crow := chunk / 96
  let ccol := chunk % 96
  let cl := (ccol + fold8 crow) % 96
  let ca := crow * 256 + la % 256
  let k := cl / 16
  let li := ca / 128
  let set := ((li % 4096) ^^^ (li / 4096 % 4096) ^^^ (k * 0x2AB)) % 4096
  { stack := stack, channel := 96 * stack + cl, slice := 16 * stack + cl % 16, ca := ca,
    set := set, tag := k * 4096 + li / 4096 % 4096, cl := cl }

/-- The home of a device line; none outside every partition. -/
def Dev.homeOfLine (d : Dev) (n : Nat) : Option (Nat × Home) :=
  (List.range 4).findSome? (fun p => match d.pconf p with
    | some c => if c.owns (n * 128) then some (p, homeOf c.first c.stacks (n * 128)) else none
    | none => none)

/-- Proxy slice and set of a host line in a partition (R274). -/
def proxyOf (f ns n : Nat) : Nat × Nat :=
  let ha := n * 128
  let stack := 2 * f + fold8 (ha / 4096) % ns
  let loc := fold8 (ha / 256) % 16
  let set := ((n % 4096) ^^^ (n / 4096 % 4096) ^^^ (n / 2 ^ 24 % 4096) ^^^ (n / 2 ^ 36 % 4096)) % 4096
  (16 * stack + loc, set)

/-- Home or proxy slice and set of a line for requests of partition p. -/
def Dev.place (d : Dev) (p : Nat) (l : Line) : Option (Nat × Nat) :=
  match d.pconf p with
  | none => none
  | some c =>
    if l.host then some (proxyOf c.first c.stacks l.n)
    else if c.owns (l.n * 128) then let h := homeOf c.first c.stacks (l.n * 128); some (h.slice, h.set)
    else none

/-- Local slice number of a line: cl mod 16 (R261), or the host line's local slice. -/
def Dev.localSlice (d : Dev) (p : Nat) (l : Line) : Nat :=
  match d.place p l with | some (s, _) => s % 16 | none => 0

/-- The partition of a slice. -/
def Dev.partOfSlice (d : Dev) (s : Nat) : Option Nat := d.partOfStack (s / 16)

/-! ## Device memory as lines -/

/-- The 128 bytes of a device line. -/
def Dev.memLine (d : Dev) (n : Nat) : LineData := BitVec.ofNat 1024 (Mem.readNat d.mem (n * 128) 128)

/-- A write to a sector cancels a correction write that waits for it (10 R314). -/
def Dev.cancelCorrections (d : Dev) (n : Nat) (sectors : BitVec 4) : Dev :=
  match d.homeOfLine n with
  | none => d
  | some (_, h) =>
    let c := d.chan h.channel
    if c.corrections.isEmpty then d
    else d.setChan h.channel { c with corrections := c.corrections.filter (fun ca => !(ca / 128 == h.ca / 128 && sectors.getLsbD (ca / 32 % 4))) }

/-- Writes the bytes of a device line that a mask names. -/
def Dev.memWriteLine (d0 : Dev) (n : Nat) (mask : BitVec 128) (data : LineData) : Dev :=
  let d := d0.cancelCorrections n (sectorsOf mask)
  { d with mem := (List.range 128).foldl (fun m k =>
      if mask.getLsbD k then Mem.write m (n * 128 + k) (byteOf data.toNat k) else m) d.mem }

/-! ## Activity counts (R539) -/

/-- Domains of the ledger (19 R531): compute die d is d, base die d is 8 + d, HUB 16, LINK 17. -/
def domCompute (die : Nat) : Nat := die
def domBase (stack : Nat) : Nat := 8 + stack

/-- Adds weight to an account's count in a domain, saturating at 2^32 - 1; nothing without an account. -/
def Dev.meter (d : Dev) (dom : Nat) (acct : Option Nat) (w : Nat) : Dev :=
  match acct with
  | none => d
  | some a =>
    let k := dom * 2 ^ 32 + a
    { d with counts := sset 0 d.counts k (min (sget 0 d.counts k + w) 0xFFFFFFFF) }

/-- The account of a task. -/
def Dev.acctOf (d : Dev) (q i : Nat) : Option Nat :=
  match d.run q i with
  | some r => r.acct
  | none => match d.task q i with
    | some t => t.acct
    | none => none

/-- Sector bursts on a channel: the access counter (R327) and the meter (R539). -/
def Dev.bursts (d : Dev) (channel n : Nat) (acct : Option Nat) : Dev :=
  let c := d.chan channel
  (d.setChan channel { c with accesses := (c.accesses + n) % 2 ^ 48 }).meter (domBase (channel / 96)) acct (2 * n)

/-- The number of sectors in a mask. -/
def sectorCount (s : BitVec 4) : Nat := ((List.range 4).filter (fun k => s.getLsbD k)).length

/-! ## Host addresses of device lines (13 R405) -/

/-- The host physical address of a device line. -/
def Dev.hpaOf (d : Dev) (n : Nat) : Nat :=
  match d.homeOfLine n with
  | none => 0
  | some (p, _) => match d.pconf p with
    | some c => (sget {} d.host.decoders p).base + (n * 128 - c.base)
    | none => 0

/-- The partition and device physical address of a host physical address in a committed decoder. -/
def Dev.dpaOf (d : Dev) (hpa : Nat) : Option (Nat × Nat) :=
  (List.range 4).findSome? (fun p =>
    let x := sget {} d.host.decoders p
    match d.pconf p with
    | some c => if x.committed && decide (x.base ≤ hpa) && decide (hpa < x.base + x.size)
        then some (p, c.base + (hpa - x.base)) else none
    | none => none)

/-! ## Messages -/

/-- Appends a message to the network: each channel between two units delivers in order (R259). -/
def Dev.send (d : Dev) (m : Msg) : Dev := { d with net := d.net ++ [m] }

/-- The virtual channel of a message (R258): 0 REQ, 1 RSP, 2 DATA. -/
def MsgBody.vc : MsgBody → Nat
  | .rdS .. | .rdO .. | .atm .. | .inv .. | .evn .. => 0
  | .ack .. | .atmRsp .. | .invAck .. | .held .. => 1
  | .wr .. | .redc .. | .fill .. => 2

/-- The oldest message of one channel from `src` to `dst`, with the rest of the network. -/
def takeFirst (src dst : UnitId) (vc : Nat) : List Msg → Option (Msg × List Msg)
  | [] => none
  | m :: ms =>
    if m.src = src ∧ m.dst = dst ∧ m.body.vc = vc then some (m, ms)
    else match takeFirst src dst vc ms with
      | none => none
      | some (x, rest) => some (x, m :: rest)

/-! ## Records of the fault collector -/

/-- The 32 bytes of an entry (R500). -/
def LogEntry.bytes (e : LogEntry) : Nat :=
  let flags := (if e.injected then 1 else 0) + (if e.detected then 2 else 0) + (if e.startedLoss then 4 else 0)
    + (if e.moduleWide then 8 else 0)
  e.time % 2 ^ 64 + e.kind <<< 64 + e.detector <<< 80 + flags <<< 88 + e.repeats <<< 96 + e.partition <<< 112
    + e.location <<< 120 + e.unit <<< 128 + e.cause <<< 160 + e.detail.toNat <<< 192

/-- Whether the channel of a device address can be written: memory rails up, not in self-refresh (R503). -/
def Dev.logWritable (d : Dev) : Bool :=
  d.start.state == .ready && decide (d.stage < 4) && !d.faults.stopped && decide (d.conf.eventLog.size > 0)

/-- Writes an entry: FLT_RECENT (R504), the trace port (21 R571) and the event log (20 R562). [DEDUCED, log 59] -/
def Dev.logEntry (d : Dev) (e : LogEntry) : Dev :=
  let f := d.faults
  let f1 := { f with recent := sput f.recent (f.recentCount % 16) e, recentCount := f.recentCount + 1,
                     trace := if d.conf.traceWidth = 0 then f.trace
                       else if f.trace.length < 17 then f.trace ++ [e] else f.trace }
  if d.logWritable then
    let n := f.logProduced
    let addr := d.conf.eventLog.base + 32 * (n % 65536)
    { d with mem := Mem.writeNat d.mem addr 32 e.bytes
             faults := { f1 with logProduced := n + 1,
                                 overwrites := if n ≥ f.logConsumed + 65536 then f.overwrites + 1 else f.overwrites } }
  else { d with faults := { f1 with unwritten := min (f.unwritten + 1) 0xFFFF } }

end Sys2Proof.Machine
end

