-- ==== Sys2Proof/Machine/SeifOps.lean ====
section
/-! DEFINITION. Sending over Seif: ports, routes, flits, retry, credits (15 R443, R446-R452). -/

namespace Sys2Proof.Machine

open Sys2Proof

def Dev.port (d : Dev) (n : Nat) : Port := sget {} d.ports n
def Dev.setPort (d : Dev) (n : Nat) (x : Port) : Dev := { d with ports := sset {} d.ports n x }

/-- Fields of a port_map entry (R442). -/
def Dev.portEntry (d : Dev) (n : Nat) : Word := d.conf.portMap.getD n 0
def Dev.portEnabled (d : Dev) (n : Nat) : Bool := decide (n < 16) && (d.portEntry n).getLsbD 0

/-- The route entry of a module. -/
def Dev.route (d : Dev) (m : Nat) : BitVec 16 := sget 0#16 d.conf.route m

/-- Whether a port carries messages: it is up, or retrains and keeps them. -/
def Port.carries (x : Port) : Bool := x.state == .up || x.retraining

/-- The partition that holds a port (R443). -/
def Dev.partOfPort (d : Dev) (n : Nat) : Option Nat := d.partOfLode (n / 4)

/-- Message type codes (R451). -/
def mtPutData : Nat := 0x01
def mtPutAck : Nat := 0x02
def mtGetReq : Nat := 0x03
def mtGetData : Nat := 0x04
def mtSignal : Nat := 0x05
def mtSignalAck : Nat := 0x06
def mtReady : Nat := 0x10
def mtCollData : Nat := 0x11
def mtAbort : Nat := 0x12
def mtNack : Nat := 0x20

/-- Whether a message travels on BULK. -/
def seifBulk (m : SeifMsg) : Bool := m.type == mtPutData || m.type == mtGetData || m.type == mtCollData

/-- CTRL places of a message. -/
def seifPlaces (m : SeifMsg) : Nat := if m.type = mtSignal then 2 else 1

/-- Flits that the peer's receive buffer holds: one at least (R450). [DESIGN CHOICE, log 35] -/
def seifRoom (bulk : Bool) : Nat := Config.seifBuffer bulk + 1

/-- The CTRL messages at the head of a list that fit one flit of fifteen places, with the rest. -/
def takeCtrl : Nat → List SeifMsg → List SeifMsg × List SeifMsg
  | _, [] => ([], [])
  | room, m :: ms =>
    if seifBulk m then
      match takeCtrl room ms with
      | (a, b) => (a, m :: b)
    else if seifPlaces m ≤ room then
      match takeCtrl (room - seifPlaces m) ms with
      | (a, b) => (m :: a, b)
    else ([], m :: ms)

/-- The first BULK message of a list, with the rest. -/
def takeBulk : List SeifMsg → Option (SeifMsg × List SeifMsg)
  | [] => none
  | m :: ms => if seifBulk m then some (m, ms) else (takeBulk ms).map (fun x => (x.1, m :: x.2))

/-- A flit goes on the wire: it carries the acknowledgement and returns credits (R447, R449). -/
def Port.emit (x : Port) (kind seq : Nat) (bulk : Bool) (msgs : List SeifMsg) : Port :=
  { x with wire := x.wire ++ [{ kind := kind, seq := seq, ack := (x.rxSeq + 4095) % 4096, bulk := bulk,
                                ctrlCredits := min x.ctrlBack 255, bulkCredits := min x.bulkBack 255, msgs := msgs }]
           ctrlBack := x.ctrlBack - min x.ctrlBack 255
           bulkBack := x.bulkBack - min x.bulkBack 255
           sinceNull := if kind = 1 then 0 else x.sinceNull + 1 }

/-- A NULL when 4,095 flits have gone without one (R450). -/
def Port.nullDue (x : Port) : Port := if x.sinceNull ≥ 4095 then x.emit 1 0 false [] else x

/-- A new PAYLOAD flit. -/
def Port.sendFlit (x : Port) (bulk : Bool) (msgs : List SeifMsg) : Port :=
  let y := (x.nullDue).emit 0 x.txSeq bulk msgs
  { y with txSeq := (x.txSeq + 1) % 4096, retry := x.retry ++ [{ seq := x.txSeq, bulk := bulk, msgs := msgs }]
           ctrlUsed := if bulk then x.ctrlUsed else x.ctrlUsed + 1
           bulkUsed := if bulk then x.bulkUsed + 1 else x.bulkUsed }

/-- One flit from the waiting messages, when the retry buffer and the credits allow one (R449, R450). -/
def Port.sendOne (x : Port) : Option Port :=
  if x.state ≠ .up ∨ x.retry.length ≥ 4095 then none
  else
    let ctrlOk := decide (x.ctrlUsed < seifRoom false) && x.txq.any (fun m => !seifBulk m)
    let bulkOk := decide (x.bulkUsed < seifRoom true) && x.txq.any (fun m => seifBulk m)
    let ctrl := fun (_ : Unit) => match takeCtrl 15 x.txq with
      | (a, b) => some (({ x with txq := b } : Port).sendFlit false a)
    let bulk := fun (_ : Unit) => match takeBulk x.txq with
      | some (m, b) => some (({ x with txq := b } : Port).sendFlit true [m])
      | none => none
    match x.txq.head? with
    | none => none
    | some m => if seifBulk m then (if bulkOk then bulk () else if ctrlOk then ctrl () else none)
        else (if ctrlOk then ctrl () else if bulkOk then bulk () else none)

def Port.pumpFor (x : Port) : Nat → Port
  | 0 => x
  | fuel + 1 => match x.sendOne with
    | none => x
    | some y => Port.pumpFor y fuel

/-- Sends what can be sent. -/
def Port.pump (x : Port) : Port := x.pumpFor (x.txq.length + 1)

/-- A message joins a port's queue. -/
def Dev.putOn (d : Dev) (n : Nat) (m : SeifMsg) : Dev :=
  let x := d.port n
  d.setPort n ({ x with txq := x.txq ++ [m] } : Port).pump

/-- The last flit of a port goes out damaged (17 R493, R507). -/
def Port.damageLast (x : Port) : Port :=
  { x with wire := x.wire.dropLast ++ (x.wire.drop (x.wire.length - 1)).map (fun f => { f with damaged := true }) }

/-- The ports that may carry a message for a module: of the partition that originates it, and of a mask (R443, R452). -/
def Dev.portsTo (d : Dev) (part : Option Nat) (mask module : Nat) : List Nat :=
  (List.range 16).filter (fun n => (d.route module).getLsbD n && mask.testBit n && d.portEnabled n && (d.port n).carries
    && (match part with | some p => d.partOfPort n == some p | none => true))

/-- Sends a message by the ports allowed, taken in turn; none when no port is usable (R452). -/
def Dev.seifSend (d : Dev) (part : Option Nat) (mask : Nat) (m : SeifMsg) : Option Dev :=
  match d.portsTo part mask m.dstModule with
  | [] => none
  | n :: ns =>
    let k := (n :: ns).getD (d.seif.turn % (ns.length + 1)) n
    some ({ d with seif := { d.seif with turn := d.seif.turn + 1 } }.putOn k m)

/-- How many lanes carry data. -/
def laneCount (m : BitVec 8) : Nat := ((List.range 8).filter (fun k => m.getLsbD k)).length

/-- Half the lanes of a width, the lower ones; a port at 2 lanes stays at 2 (R446). -/
def halfLanes (m : BitVec 8) : BitVec 8 :=
  if m = 0xFF then 0x0F else if m = 0x0F then 0x03 else if m = 0xF0 then 0x30 else m

/-- A LINK entry for a Seif port (17 R501). [DEDUCED, log 34] -/
def Dev.seifEntry (d : Dev) (n : Nat) : Dev :=
  d.logEntry { time := d.time, kind := 6, unit := n, location := 8 }

/-- A port changes its width by the lane-change handshake (R446). -/
def Dev.setLanes (d : Dev) (n : Nat) (lanes : BitVec 8) : Dev :=
  let x := d.port n
  if x.lanes = lanes then d else (d.setPort n (({ x with lanes := lanes } : Port).emit 3 0 false [])).seifEntry n

/-- Every port that is up halves its width, or returns to the trained one (R446). -/
def Dev.halvePorts (d : Dev) : Dev :=
  (List.range 16).foldl (fun (e : Dev) n => if (e.port n).state = .up then e.setLanes n (halfLanes (e.port n).lanes) else e) d
def Dev.widenPorts (d : Dev) : Dev :=
  (List.range 16).foldl (fun (e : Dev) n => if (e.port n).state = .up then e.setLanes n (e.port n).trained else e) d

/-- The function field of a message (R451). -/
def fnField (fn : Nat) : Nat := if fn ≥ 0x100 then 0x100 else fn

/-- The COLL_ABORT of a collective to every rank (R465). -/
def Dev.abortColl (d : Dev) (c : Coll) : Dev :=
  (List.range c.ranks.length).foldl (fun (e : Dev) r =>
    if r = c.me then e
    else
      let to' := c.ranks.getD r (0, 0)
      (e.seifSend (some c.part) c.ports
        { dstModule := to'.1, dpart := if c.fn < 0x100 then 0 else to'.2, srcModule := e.conf.moduleId, spart := c.part, type := mtAbort, function := fnField c.fn,
          handle := c.seq % 2 ^ 13, w1 := BitVec.ofNat 64 (c.commId + c.seq * 2 ^ 16) }).getD e) d

/-- Ends collectives that satisfy a test, with an abort to their ranks. -/
def Dev.abortColls (d : Dev) (p : Coll → Bool) : Dev :=
  let gone := d.seif.colls.filter p
  let d1 := gone.foldl (fun (e : Dev) c => e.abortColl c) d
  { d1 with seif := { d1.seif with colls := d1.seif.colls.filter (fun c => !p c) } }

end Sys2Proof.Machine
end

