-- ==== Sys2Proof/Machine/Loss.lean ====
section
/-! DEFINITION. Partition loss: steps 2-6 of R384 with R281, and the reports that lead to it (R380-R383, R388,
R494). -/

namespace Sys2Proof.Machine

/-- Mailbox numbers (R423): 0 foreman, 1 secure, 2 + 2i tenant-to-manager and 3 + 2i manager-to-tenant of instance i. -/
def mbForeman : Nat := 0
def mbSecure : Nat := 1
def mbToManager (i : Nat) : Nat := 2 + 2 * i
def mbToTenant (i : Nat) : Nat := 3 + 2 * i

/-- Writes an acknowledge into the sender's slot (R426). -/
def Dev.mailAck (d : Dev) (mb : Nat) (seq rc : BitVec 16) : Dev :=
  let m := d.mailbox mb
  d.setMailbox mb { m with acks := sput m.acks (seq.toNat % 16) (seq, rc) }

/-- The stack of a unit of the message network; none for the hub's and the host. -/
def unitStack : UnitId → Option Nat
  | .core die _ => some die
  | .slice n => some (n / 16)
  | .copyEngine n => some n
  | .collEngine n => some (2 * n)
  | .control _ => none
  | .host => none

/-- Whether a unit belongs to the partition. -/
def Dev.unitIn (d : Dev) (p : Nat) (u : UnitId) : Bool :=
  match u with
  | .control q => q == p
  | _ => match unitStack u with
    | some n => d.partOfStack n == some p
    | none => false

/-- The keys of a sparse table that satisfy a test are dropped. -/
def sdrop {α : Type} (p : Nat → Bool) (l : Sparse α) : Sparse α := l.filter (fun x => !p x.1)

/-- Step 3 of R384: ends every group of the partition, and with them its blocks and matrix work; no record. -/
def Dev.endPartGroups (d : Dev) (p : Nat) : Dev :=
  { d with groups := sdrop (fun k => d.partOfStack (dieOfKey k) == some p) d.groups
           munits := sdrop (fun k => d.partOfStack (k / 4 / 256) == some p) d.munits
           cores := d.cores.map (fun x => if d.partOfStack (x.1 / 256) = some p then
             (x.1, { x.2 with blocks := [], loads := [], prefetches := [], outs := [], copies := [] }) else x) }

/-- Step 4 of R384: every task and kernel run of the partition's queues ends; no signal and no record. Its collectives
are aborted (15 R465). -/
def Dev.endPartTasks (d0 : Dev) (p : Nat) : Dev :=
  let d := d0.abortColls (fun c => c.part == p)
  { d with tasks := d.tasks.filter (fun t => d.partOfQueue t.q != some p)
           runs := d.runs.filter (fun r => r.part != p)
           engOuts := d.engOuts.filter (fun o => d.partOfQueue o.q != some p) }

/-- What the slices do at a loss: all of R281; all but the writes of its step 5 (16 R485); only lose their lines (16
R484). -/
inductive Flush where
  | full | noWrite | nothing
  deriving DecidableEq, Repr

/-- What one home or proxy way leaves behind at a loss (R281 steps 3-5): a back-invalidate for a line with a host
bit, an eviction of a host line, dirty sectors in the channel. -/
def Dev.dropWay (d : Dev) (p : Nat) (how : Flush) (w : Way) : Dev :=
  if how = .nothing then d
  else if w.line.host then
    match w.mesi with
    | .m => { d with toHost := d.toHost ++ [.dirtyEvict p (w.line.n * 128) w.data] }
    | .s | .e => { d with toHost := d.toHost ++ [.cleanEvict p (w.line.n * 128)] }
    | .i => d
  else
    let d2 := if how = .noWrite then d else
      let d1 := d.memWriteLine w.line.n (sectorMask w.dirty) w.data
      match d.homeOfLine w.line.n with
      | some (_, h) => d1.bursts h.channel (sectorCount w.dirty) none
      | none => d1
    if w.hostS || w.hostE then
      { d2 with toHost := d2.toHost ++ [.biSnpInv (d2.hpaOf w.line.n)], contBi := d2.contBi ++ [w.line.n] }
    else d2

/-- Step 5 of R384 (R281): the partition's slices. -/
def Dev.endPartSlices (d : Dev) (p : Nat) (how : Flush) : Dev :=
  let mine := d.slices.filter (fun x => d.partOfSlice x.1 == some p)
  let d1 := mine.foldl (fun (e : Dev) x => x.2.ways.foldl (fun e w => e.dropWay p how w.2) e) d
  { d1 with slices := sdrop (fun s => d.partOfSlice s == some p) d1.slices
            net := d1.net.filter (fun m => !(d.unitIn p m.src || d.unitIn p m.dst)) }

/-- Causes that no warm restart follows (R383). -/
def causeDown (c : Nat) : Bool :=
  c == 0x92 || c == 0x95 || c == 0x96 || c == 0x97 || c == 0x98 || c == 0x99

/-- Causes that take every partition (R388); one ends a restart that follows a containment. -/
def moduleCause (c : Nat) : Bool := c == 0x95 || c == 0x96 || c == 0x97 || c == 0x98

/-- A second cause before the partition has formed again adds a repeat to the record of its loss (R388). -/
def Dev.repeatLoss (d : Dev) (p : Nat) : Dev :=
  let newest := d.faults.recent.foldl (fun (b : Option Nat) x =>
    if x.2.kind = 3 ∧ x.2.partition = p then some x.1 else b) none
  match newest with
  | none => d
  | some k =>
    match sfind d.faults.recent k with
    | none => d
    | some e => { d with faults := { d.faults with recent := sput d.faults.recent k { e with repeats := min (e.repeats + 1) 0xFFFF } } }

/-- A running foreman command of the partition's instances completes with LOST (R427, R440). -/
def Dev.loseForeman (d : Dev) (p : Nat) : Dev :=
  d.insts.foldl (fun (e : Dev) x =>
    if d.partOfLode (x.1 / 64) = some p then
      match x.2.cmd with
      | some c => (e.setInst x.1 { x.2 with cmd := none, lastRc := 0x000A }).mailAck mbForeman (BitVec.ofNat 16 c.seq) 0x000A
      | none => e
    else e) d

/-! ## Units (17 R494, R583) -/

/-- Where a detector's unit lies: a stack, the hub, a Seif port, the UCIe link. -/
inductive Place where
  | stack (n : Nat)
  | hub
  | seif (port : Nat)
  | ucie
  deriving DecidableEq, Repr

/-- The place of a rail (R583). -/
def railPlace (r : Nat) : Place :=
  if r < 16 then .stack (r / 2) else if r < 24 then .stack (r - 16) else if r < 48 then .stack ((r - 24) / 3) else .hub

/-- The place of a detector's unit; none for a unit number that R583 does not assign. [DEDUCED, log 42] -/
def detPlace (det unit : Nat) : Option Place :=
  match det with
  | 0x01 => if unit < 768 then some (.stack (unit / 96)) else none
  | 0x02 =>
    if unit < 128 then some (.stack (unit / 16))
    else if unit / 65536 = 1 then (if unit % 65536 < 2048 ∧ unit % 256 < 160 then some (.stack (unit % 65536 / 256)) else none)
    else if unit / 65536 = 2 then (if unit % 65536 < 4 then some .hub else none)
    else if unit / 65536 = 3 then (if unit % 65536 < 16 then some (.seif (unit % 65536)) else none)
    else if unit / 65536 = 4 then (if unit % 65536 < 4 then some .ucie else none)
    else none
  | 0x03 => if unit < 2048 ∧ unit % 256 < 160 then some (.stack (unit / 256)) else none
  | 0x04 => if unit < 128 then some (.stack (unit / 16)) else none
  | 0x05 => if unit < 8 then some (.stack unit) else none
  | 0x06 => if unit < 16 then some (.seif unit) else none
  | 0x07 => if unit < 4 then some .ucie else none
  | 0x08 | 0x0F => if unit < 8 then some (.stack unit) else if unit = 8 then some .hub else none
  | 0x09 => if unit < 128 then some (.stack (unit / 16)) else if 0x100 ≤ unit ∧ unit < 0x400 then some (.stack ((unit - 0x100) / 96))
      else if unit = 0x400 then some .ucie else none
  | 0x0A => if unit < 4 then some .hub else none
  | 0x0B => if unit < 52 then some (railPlace unit) else none
  | 0x0C => if unit < 104 then some (railPlace (unit / 2)) else none
  | 0x0D => if unit < 160 then some (.stack (unit / 20)) else if unit < 256 then some (.stack ((unit - 160) / 12))
      else if unit < 264 then some .hub else none
  | 0x0E =>
    if unit < 2048 ∧ unit % 256 < 160 then some (.stack (unit / 256))
    else if 0x10000 ≤ unit ∧ unit < 0x10008 then some (.stack (unit - 0x10000))
    else if unit = 0x10008 then some .hub else none
  | 0x10 => if unit < 96 then some (.stack (unit / 12)) else if unit < 100 then some .hub else none
  | _ => none

/-- The partition of a detector's unit. -/
def Dev.detPart (d : Dev) (det unit : Nat) : Option Nat :=
  match detPlace det unit with
  | some (.stack n) => d.partOfStack n
  | _ => none

/-- The location byte of a unit (R500). -/
def locOf (det unit : Nat) : Nat :=
  match detPlace det unit with
  | some (.stack n) => n
  | none => 0xFF
  | _ => 8

/-! ## Injection (R507, R508) -/

/-- Detector and unit of the armed injection. -/
def Injection.aim (x : Injection) : Option (Nat × Nat) :=
  x.armed.map (fun a => (a.1.toNat % 256, a.1.toNat / 256 % 2 ^ 24))

/-- The injection fires: the INJECT entry, the mark of the open ledger page, the counts (R508). [DEDUCED, log 45] -/
def Dev.fireInjection (d : Dev) : Dev :=
  match d.inj.aim with
  | none => d
  | some (det, unit) =>
    let x := d.inj
    let pg := d.ledger.page
    ({ d with inj := { x with armed := none, fired := true, last := some (det, unit), count := (x.count + 1) % 2 ^ 32, lastTime := d.time }
              ledger := { d.ledger with page := { pg with injected := true, injections := min (pg.injections + 1) 0xFFFF } } }).logEntry
      { time := d.time, kind := 7, detector := det, injected := true, unit := unit, location := locOf det unit,
        partition := (d.detPart det unit).getD 0xFF }

/-- An injection armed for a unit of the partition is disarmed at step 2 of R384 (R510). -/
def Dev.disarmIn (d : Dev) (p : Nat) : Dev :=
  match d.inj.aim with
  | some (det, unit) => if d.detPart det unit = some p then { d with inj := { d.inj with armed := none } } else d
  | none => d

/-- A loss marks the open ledger page and the tickets of the partition's functions (19 R555). -/
def Dev.markLedger (d : Dev) (p : Nat) : Dev :=
  let pg := d.ledger.page
  let mine := fun (t : Ticket) => t.fn < 0x200 && d.partOfFn t.fn == some p
  { d with ledger := { d.ledger with page := { pg with lost := true
                                                       tickets := pg.tickets.map (fun t => if mine t then { t with lost := true } else t) } } }

/-- Steps 2-6 of R384 for one partition: LOSS entry, containment, DOWN where no restart follows. The third loss
within 60 s has the cause LOST_RESTART (R383, R495). [DESIGN CHOICE, log 28] -/
def Dev.losePartBy (d : Dev) (how : Flush) (p cause0 : Nat) (e : LogEntry) : Dev :=
  let x := d.part p
  if x.state = .absent then d
  else if x.state = .down || (x.state == .containing && !moduleCause cause0) then d.repeatLoss p
  else
    let third := decide ((x.history.filter (fun t => decide (d.time < t + 60000000000))).length ≥ 2)
    let cause := if third && !causeDown cause0 then 0x99 else cause0
    let d1 := d.setPart p { x with state := if causeDown cause then .down else .containing, cause := cause,
                                   losses := (x.losses + 1) % 2 ^ 32, lossTime := d.time,
                                   history := (d.time :: x.history).take 3 }
    let d2 := d1.logEntry { e with time := d.time, kind := 3, startedLoss := true, partition := p, cause := cause }
    let d3 := (((((d2.disarmIn p).markLedger p).loseForeman p).endPartGroups p).endPartTasks p).endPartSlices p how
    let d4 := if causeDown cause then d3.logEntry { e with time := d.time, kind := 4, partition := p, cause := cause } else d3
    { d4 with faults := { d4.faults with faultN := true } }

def Dev.losePart (d : Dev) (p cause : Nat) (e : LogEntry) : Dev := d.losePartBy .full p cause e

/-- A job fault (R380, R382) of partition p raised at a unit of stack `loc`. -/
def Dev.jobFault (d : Dev) (p cause loc : Nat) : Dev :=
  d.losePart p cause { time := d.time, kind := 3, location := loc }

def causeAddress : Nat := 0x81
def causeIllegal : Nat := 0x82
def causeTrap : Nat := 0x83
def causeReduction : Nat := 0x84

/-- Every partition is lost with one cause. -/
def Dev.loseAll (d : Dev) (how : Flush) (cause : Nat) (e : LogEntry) : Dev :=
  (List.range 4).foldl (fun (x : Dev) p => x.losePartBy how p cause e) d

/-- Counts a report of a detector (R504). -/
def Dev.countReport (d : Dev) (det : Nat) (detected : Bool) : Dev :=
  let f := d.faults
  { d with faults := if detected
      then { f with detected := sset 0 f.detected det ((sget 0 f.detected det + 1) % 2 ^ 32) }
      else { f with masked := sset 0 f.masked det ((sget 0 f.masked det + 1) % 2 ^ 32) } }

/-- A masked report: counted, and logged at most once per detector and unit in a second (R492, R501). [DEDUCED, log 42] -/
def Dev.maskedReport (d : Dev) (e : LogEntry) : Dev :=
  let d1 := d.countReport e.detector false
  let key := (e.detector, e.unit, d.time / 1000000000)
  if d1.faults.lastMasked.contains key then d1
  else
    let old := d1.faults.lastMasked.filter (fun k => !(k.1 == e.detector && k.2.1 == e.unit))
    ({ d1 with faults := { d1.faults with lastMasked := key :: old } }).logEntry { e with time := d.time, kind := 2 }

/-- A detected report whose boundary is a partition: FAULT entry and loss (R494, R501). -/
def Dev.detectedIn (d : Dev) (p cause : Nat) (e : LogEntry) : Dev :=
  let d1 := d.countReport e.detector true
  match (d.part p).state with
  | .containing | .down => d1.repeatLoss p
  | _ =>
    let d2 := d1.logEntry { e with time := d.time, kind := 1, detected := true, partition := p, startedLoss := true }
    d2.losePart p cause { e with time := d.time, kind := 3, detected := true }

end Sys2Proof.Machine
end

