-- ==== Sys2Proof/Machine/Operands.lean ====
section
/-! DEFINITION. Operand forms of the instruction formats: which words are legal (04 R127, R136-R143), which registers
an instruction names, and the values of its sources (R135, R137, R138). -/

namespace Sys2Proof.Machine

/-- Registers an instruction names: uniform file?, first register, count. -/
structure Use where
  uni : Bool
  idx : Nat
  n   : Nat
  deriving DecidableEq, Repr

/-- Whether the registers exist and are named as R127 says: per-thread pairs, quads and octets by a multiple of
their size, below n_v; uniform registers below 64, a pair of them (`n` = 2 uniform registers) where asked. -/
def Use.ok (nv : Nat) (u : Use) : Bool :=
  if u.uni then decide (u.idx + u.n ≤ 64)
  else decide (u.idx % (max u.n 1) = 0) && decide (u.idx + u.n ≤ nv)

/-- What a field of format A names. `reg n`: an operand of n 32-bit registers, or, up to 64 bits (R127), one uniform register; `upair`: two
uniform registers, in either form. -/
inductive Opnd where
  | unused
  | reg (n : Nat)
  | pred
  | upair
  deriving DecidableEq, Repr

/-- How a format A instruction uses its fields (R136, R146). -/
structure ASpec where
  d : Opnd := .unused
  a : Opnd := .unused
  b : Opnd := .unused
  c : Opnd := .unused
  /-- The modifier field holds no reserved value and no bit the class marks 0. -/
  modOk   : Bool := true
  long    : Bool := false
  uni     : Bool := false
  onlyUni : Bool := false
  deriving DecidableEq, Repr

/-- Bits [13:10] of the guard are 0 where it is not enabled (R135). -/
def guardOk (g : BitVec 5) : Bool := g.getLsbD 4 || g == 0

/-- The lanes of a path in which the guard holds (R135). -/
def guardLanes (g : Group) (mask : Lanes) (guard : BitVec 5) : Lanes :=
  if guard.getLsbD 4 then
    let p := g.readP (guard.toNat % 8)
    mask &&& (if guard.getLsbD 3 then ~~~p else p)
  else mask

/-- One field: none when it breaks the rules, else the registers it names. `uni` says whether its register is
uniform, `k` its kind bit. -/
def fieldUses (nv : Nat) (o : Opnd) (v : BitVec 8) (uf k : Bool) : Option (List Use) :=
  match o with
  | .unused => if v = 0 && !k then some [] else none
  | .pred => if v.toNat < 8 && !k then some [] else none
  | .reg n =>
    let u : Use := if uf || k then ⟨true, v.toNat, 1⟩ else ⟨false, v.toNat, n⟩
    if u.ok nv && (n ≤ 2 || !(uf || k)) then some [u] else none
  | .upair =>
    let u : Use := ⟨true, v.toNat, 2⟩
    if u.ok nv && (uf || k) then some [u] else none

/-- The registers a legal format A word names; none for an illegal encoding (R137, R138, R143). -/
def aUses (nv : Nat) (w : FmtA) (sp : ASpec) : Option (List Use) :=
  let hasB := match sp.b with | .reg _ => true | _ => false
  if guardOk w.guard && sp.modOk && (!w.ib || (hasB && !w.lf && !w.kb))
      && (!w.lf || (sp.long && hasB && w.b == 0 && !w.kb))
      && (!w.uf || (sp.uni && !w.ka && !w.kb && !w.kc)) && (!sp.onlyUni || w.uf) then
    match fieldUses nv sp.d w.d w.uf false, fieldUses nv sp.a w.a w.uf w.ka,
          (if w.ib || w.lf then some [] else fieldUses nv sp.b w.b w.uf w.kb), fieldUses nv sp.c w.c w.uf w.kc with
    | some x, some y, some z, some t => some (x ++ y ++ z ++ t)
    | _, _, _, _ => none
  else none

/-- The value of a register source in a lane: a pair when `n` is 2, a uniform register whole or its low 32 bits. -/
def srcReg (g : Group) (lane : Nat) (uni : Bool) (idx n : Nat) : Nat :=
  if uni then (g.readU idx).toNat % 2 ^ (32 * min n 2) else g.readVs idx lane n

/-- Source A. -/
def srcA (g : Group) (w : FmtA) (lane n : Nat) : Nat := srcReg g lane (w.uf || w.ka) w.a.toNat n

/-- Source B: a register, the 8-bit immediate sign-extended to the operand width, or the immediate word cut to it
(R138). -/
def srcB (g : Group) (w : FmtA) (lane n : Nat) : Nat :=
  if w.ib then (w.b.signExtend 64).toNat % 2 ^ (32 * n)
  else if w.lf then w.imm.toNat % 2 ^ (32 * n)
  else srcReg g lane (w.uf || w.kb) w.b.toNat n

/-- Source C. -/
def srcC (g : Group) (w : FmtA) (lane n : Nat) : Nat := srcReg g lane (w.uf || w.kc) w.c.toNat n

/-- Writes a result of `n` registers to d: per-thread, or a uniform register with zeros above (R137). -/
def writeD (g : Group) (w : FmtA) (lane n x : Nat) : Group :=
  if w.uf then g.writeU w.d.toNat (BitVec.ofNat 64 (x % 2 ^ (32 * n))) else g.writeVs w.d.toNat lane n x

/-- Bytes an instruction occupies (R133). -/
def insLen (lf : Bool) : Nat := if lf then 16 else 8

/-! ## Formats I, M and B -/

/-- Format I (R139, R143): the fixed zeros; `useA` and `useD` say which registers are used, of `n` registers. -/
def iUses (nv : Nat) (w : FmtI) (dn an : Option Nat) : Option (List Use) :=
  if guardOk w.guard && !w.lf && w.mod == 0 && !w.z59 && w.z63 == 0 && (!w.uf || !w.ka) then
    match fieldUses nv (match dn with | some n => .reg n | none => .unused) w.d w.uf false,
          fieldUses nv (match an with | some n => .reg n | none => .unused) w.a w.uf w.ka with
    | some x, some y => some (x ++ y)
    | _, _ => none
  else none

/-- Bytes of an access by its width code (R140). -/
def widthBytes (w : BitVec 3) : Nat :=
  match w.toNat with
  | 0 | 1 => 1
  | 2 | 3 => 2
  | 4 => 4
  | 5 => 8
  | _ => 16

/-- 32-bit registers of the data of an access. -/
def widthRegs (w : BitVec 3) : Nat := (widthBytes w + 3) / 4

/-- Whether the data register of a format M word is uniform. -/
def mDataUni (w : FmtM) : Bool := w.uf || w.kd

/-- The data register of a format M word: a uniform one takes a pair at B128, named by an even register (R127). -/
def mDataUse (nv : Nat) (w : FmtM) : Option (List Use) :=
  if mDataUni w then
    if w.width = 6 then
      (if w.d.toNat % 2 = 0 && w.d.toNat + 2 ≤ 64 then some [⟨true, w.d.toNat, 2⟩] else none)
    else (if w.d.toNat < 64 then some [⟨true, w.d.toNat, 1⟩] else none)
  else
    let u : Use := ⟨false, w.d.toNat, widthRegs w.width⟩
    if u.ok nv then some [u] else none

/-- The registers a legal format M word names (R140, R143). `data` is false for PREFETCH; `load` for the kind bit of
d; `semOk` what the class allows; `an` the registers of the base. [DEDUCED, log 11] -/
def mUses (nv : Nat) (w : FmtM) (an : Nat) (data load semOk : Bool) : Option (List Use) :=
  if guardOk w.guard && w.width.toNat < 7 && w.scope.toNat < 5 && w.z58 == 0 && !w.z63 && semOk
      && (!w.lf || w.off16 == 0) && (!w.uf || (!w.ka && !w.kd)) && (!load || !w.kd) then
    match fieldUses nv (.reg an) w.a w.uf w.ka,
          (if data then mDataUse nv w else if w.d = 0 && w.width = 0 && !w.kd then some [] else none) with
    | some x, some y => some (x ++ y)
    | _, _ => none
  else none

/-- The offset of a format M word. -/
def mOffset (w : FmtM) : Nat := if w.lf then w.imm.toNat else (w.off16.signExtend 64).toNat

/-- The 64-bit address base + offset (R151). -/
def mAddr64 (g : Group) (w : FmtM) (lane : Nat) : Nat :=
  (srcReg g lane (w.uf || w.ka) w.a.toNat 2 + mOffset w) % 2 ^ 64

/-- The 32-bit local address (R151). -/
def mAddr32 (g : Group) (w : FmtM) (lane : Nat) : Nat :=
  (srcReg g lane (w.uf || w.ka) w.a.toNat 1 + mOffset w) % 2 ^ 32

/-- Store data of a lane. -/
def mData (g : Group) (w : FmtM) (lane : Nat) : Nat :=
  if mDataUni w then
    (if w.width = 6 then (g.readU w.d.toNat).toNat + 2 ^ 64 * (g.readU (w.d.toNat + 1)).toNat
     else (g.readU w.d.toNat).toNat)
  else g.readVs w.d.toNat lane (widthRegs w.width)

/-- The value a load writes from the bytes it read: zero-extended, or sign-extended for S8 and S16, to a register
(R152). -/
def loadExtend (width : Nat) (x : Nat) : Nat :=
  match width with
  | 1 => ((BitVec.ofNat 8 x).signExtend 32).toNat
  | 3 => ((BitVec.ofNat 16 x).signExtend 32).toNat
  | _ => x

/-- Writes a loaded value: per-thread registers, or uniform ones (R140). -/
def writeLoaded (g : Group) (uni : Bool) (dst lane width : Nat) (x : Nat) : Group :=
  let v := loadExtend width x
  if uni then
    if width = 6 then (g.writeU dst (BitVec.ofNat 64 v)).writeU (dst + 1) (BitVec.ofNat 64 (v / 2 ^ 64))
    else g.writeU dst (BitVec.ofNat 64 v)
  else g.writeVs dst lane (widthRegs (BitVec.ofNat 3 width)) v

/-- The registers a format B word names (R141, R143). `indirect`: a in bits [23:16], the kind bit in [35], zeros
between; `link`: the link pair of CALL and CALL.I. -/
def bUses (nv : Nat) (w : FmtB) (indirect link long : Bool) : Option (List Use) :=
  let a := w.toff.toNat % 256
  let ka := w.toff.getLsbD 19
  let zeros := (w.toff.toNat / 256) % 2 ^ 11 == 0
  let linkOk := if link then decide (w.link.toNat % 2 = 0) && decide (w.link.toNat + 2 ≤ nv) else w.link == 0
  if guardOk w.guard && linkOk && (!w.lf || (long && w.toff == 0 && w.imm.toNat < 2 ^ 56)) && (!indirect || zeros) then
    let l : List Use := if link then [⟨false, w.link.toNat, 2⟩] else []
    if indirect then
      match fieldUses nv (.reg 2) (BitVec.ofNat 8 a) false ka with
      | some x => some (x ++ l)
      | none => none
    else some l
  else none

end Sys2Proof.Machine
end

