-- ==== Sys2Proof/Machine/Issue.lean ====
section
/-! DEFINITION. The issue of one instruction by one group (03 R87, R115, 04 R129, R133, R135, R144, R145): what every
instruction has in common. -/

namespace Sys2Proof.Machine

/-- What is at hand when a group issues. -/
structure Ctx where
  key  : Nat
  die  : Nat
  core : Nat
  sub  : Nat
  grp  : Group
  path : Path
  part : Nat
  run  : Run
  deriving DecidableEq, Repr

/-- Whether the cores of the part issue at all: not at sag stage 4 or 5, not while stopped (16 R482, R487). -/
def Dev.coresIssue (d : Dev) : Bool := decide (d.stage < 4) && !d.faults.stopped

/-- The group that can issue: resident, not halted or ended, with a running path and no path due to break away
(R113), in a running partition. [DEDUCED, log 6; DEDUCED, log 9] -/
def Dev.ctx (d : Dev) (g : GroupRef) : Option Ctx :=
  if (g.die < 8 && g.core < 160 && g.sub < 4 && g.slot < 16) = false then none else
  match d.group (gkeyOf g) with
  | none => none
  | some gr =>
    match gr.running, d.run gr.q gr.i, d.partOfStack g.die with
    | some p, some r, some part =>
      if d.partRuns part && d.coresIssue && !gr.ended && !gr.breakDue && gr.stepping == none && gr.halted == none then
        some { key := gkeyOf g, die := g.die, core := g.core, sub := g.sub, grp := gr, path := p, part := part, run := r }
      else none
    | _, _, _ => none

def Ctx.coreKey (c : Ctx) : Nat := coreOfKey c.key

/-- The lanes that take part under a guard. -/
def Ctx.lanes (c : Ctx) (guard : BitVec 5) : Lanes := guardLanes c.grp c.path.mask guard

/-- The lanes an instruction writes or acts for: in the uniform form the lowest-numbered lane of the running path,
when the guard holds in it (R137). -/
def Ctx.takers (c : Ctx) (guard : BitVec 5) (uf : Bool) : List Nat :=
  if uf then
    let l := lowLane c.path.mask
    if (c.lanes guard).getLsbD l then [l] else []
  else lanesOf (c.lanes guard)

/-- Whether two register spans of one file meet. -/
def overlaps (i n j m : Nat) : Bool := decide (i < j + m) && decide (j < i + n)

/-- Destination octet of matrix work: none for work that writes no register. -/
def MatWork.dest : MatWork → Option Nat
  | .mma _ _ _ _ _ _ _ _ _ d => some d
  | .accLd _ d => some d
  | _ => none

/-- Whether the unit still holds matrix work of the group, which may raise flags. -/
def Dev.matrixBusy (d : Dev) (key : Nat) : Bool := (d.munit (key / 16)).any (fun m => m.gkey == key)

/-- Work that reads or writes local memory when the unit performs it (R216). -/
def MatWork.usesLocal : MatWork → Bool
  | .mms .. | .smxSum .. => true
  | _ => false

/-- Whether local accesses of issued MMS or SMX.SUM of the group are still to be performed: its local stores, bulk
copies and fences, and the completion of its barriers, wait (R216). -/
def Dev.localPending (d : Dev) (key : Nat) : Bool :=
  (d.munit (key / 16)).any (fun m => m.gkey == key && m.work.usesLocal)

/-- Registers that a load or an atomic of the group is still to write, for the lanes of a path. -/
def Dev.pendingMem (d : Dev) (c : Ctx) : List Use :=
  let co := d.core c.coreKey
  let ls := co.loads.filterMap (fun l =>
    if l.gkey = c.key && (l.uni || l.lanes &&& c.path.mask != 0) then
      some (⟨l.uni, l.dst, if l.uni then (if l.width = 6 then 2 else 1) else widthRegs (BitVec.ofNat 3 l.width)⟩ : Use)
    else none)
  let os := co.outs.filterMap (fun o => match o.dst with
    | some (uni, r, n) => if o.gkey = c.key && (uni || o.lanes &&& c.path.mask != 0) then some (⟨uni, r, n⟩ : Use) else none
    | none => none)
  ls ++ os

/-- Octets that matrix work of the group is still to write. -/
def Dev.pendingMat (d : Dev) (key : Nat) : List Use :=
  (d.munit (key / 16)).filterMap (fun m =>
    if m.gkey = key then m.work.dest.map (fun r => (⟨false, r, 8⟩ : Use)) else none)

/-- Registers still to be written, for the lanes of a path. -/
def Dev.pendingRegs (d : Dev) (c : Ctx) : List Use := d.pendingMem c ++ d.pendingMat c.key

/-- Whether the path waits for the value of an atomic (08 R271). -/
def Dev.awaitsAtomic (d : Dev) (c : Ctx) : Bool :=
  (d.core c.coreKey).outs.any (fun o => o.gkey == c.key && o.dst.isSome && o.lanes &&& c.path.mask != 0)

/-- Whether some register of one list is in the other. -/
def meets (ps us : List Use) : Bool :=
  ps.any (fun p => us.any (fun u => u.uni == p.uni && overlaps u.idx u.n p.idx p.n))

/-- The interlock of R129: an instruction that names a register still to be written waits. -/
def Dev.interlocked (d : Dev) (c : Ctx) (uses : List Use) : Bool :=
  d.awaitsAtomic c || meets (d.pendingRegs c) uses

/-- Trap switch trap_uncovered of the partition (R145). -/
def Dev.trapUncovered (d : Dev) (p : Nat) : Bool := match d.pconf p with | some c => c.trapUnc | none => false
def Dev.trapDiverged (d : Dev) (p : Nat) : Bool := match d.pconf p with | some c => c.trapDiv | none => false

/-- Slots used by the group on its core: CFG_CORE_ISSUE (20 R564) and the meter (19 R539). [DESIGN CHOICE, log 60] -/
def Dev.slotsUsed (d : Dev) (c : Ctx) (n : Nat) : Dev :=
  let co := d.core c.coreKey
  (d.setCore c.coreKey { co with issued := (co.issued + n) % 2 ^ 32 }).meter (domCompute c.die) c.run.acct n

/-- The running path goes to `pc`, and the group settles (R109-R111). -/
def Dev.advance (d : Dev) (key pc : Nat) : Dev :=
  match d.group key with
  | none => d
  | some g => d.setGroup key (g.goto pc).settled

/-- What an attempt to issue gives: the device, whether the instruction went (else it waits, and only what it waits for
was started), its slots, and where the running path goes on, when the effect has not moved it. -/
structure Issued where
  dev   : Dev
  went  : Bool := true
  slots : Nat := 1
  next  : Option Nat := none

/-- The issue of an instruction. A pc that is no multiple of 8, or has bits above its 56, raises an address-kind
fault (R133, R152). `uses` is none for an illegal encoding (R144); `ti` is false where R146 says No. [DEDUCED, log 6; DEDUCED, log 7; DEDUCED, log 10] -/
def Dev.issueGen (d : Dev) (g : GroupRef) (uses : Ctx → Option (List Use)) (ti : Bool) (eff : Ctx → Issued) : Dev :=
  match d.ctx g with
  | none => d
  | some c =>
    if c.path.pc % 8 ≠ 0 || c.path.pc ≥ 2 ^ 56 then d.jobFault c.part causeAddress c.die else
    match uses c with
    | none => d.jobFault c.part causeIllegal c.die
    | some us =>
      if d.interlocked c us then d
      else if !ti && d.trapUncovered c.part then d.jobFault c.part causeTrap c.die
      else
        let r := eff c
        if r.went && r.dev.partRuns c.part then
          let d1 := r.dev.slotsUsed c r.slots
          match r.next with
          | some pc => d1.advance c.key pc
          | none => d1
        else r.dev

/-- The issue of an instruction whose effect is none where it waits; `adv` advances the pc past its `len` bytes. -/
def Dev.issue (d : Dev) (g : GroupRef) (uses : Ctx → Option (List Use)) (ti : Bool) (slots : Ctx → Nat)
    (len : Nat) (adv : Bool) (eff : Ctx → Option Dev) : Dev :=
  d.issueGen g uses ti (fun c => match eff c with
    | none => { dev := d, went := false }
    | some d' => { dev := d', slots := slots c, next := if adv then some (c.path.pc + len) else none })

/-- The commonest effect: a change of the group alone. -/
def Dev.issueGroup (d : Dev) (g : GroupRef) (uses : Ctx → Option (List Use)) (ti : Bool) (slots : Nat) (len : Nat)
    (eff : Ctx → Group) : Dev :=
  d.issue g uses ti (fun _ => slots) len true (fun c => some (d.setGroup c.key (eff c)))

/-- A computed result: a code of the destination's width and the flags raised (R194). -/
structure Res where
  val   : Nat
  flags : Word := 0
  deriving DecidableEq, Repr

/-- Registers of an operand field. -/
def Opnd.regs : Opnd → Nat
  | .reg n => n
  | _ => 0

/-- A format A instruction that computes d from a, b and c in each lane, or once in the uniform form (R137). All
sources are read before d is written. -/
def aluEffect (w : FmtA) (sp : ASpec) (f : Nat → Nat → Nat → Res) (c : Ctx) : Group :=
  let g := c.grp
  let one := fun (h : Group) lane =>
    let r := f (srcA g w lane sp.a.regs) (srcB g w lane sp.b.regs) (srcC g w lane sp.c.regs)
    (writeD h w lane sp.d.regs r.val).raise r.flags
  (c.takers w.guard w.uf).foldl one g

/-- The issue of such an instruction. -/
def Dev.issueAlu (d : Dev) (g : GroupRef) (w : FmtA) (sp : ASpec) (slots : Nat) (f : Nat → Nat → Nat → Res) : Dev :=
  d.issueGroup g (fun c => aUses c.grp.nv w sp) true slots (insLen w.lf) (aluEffect w sp f)

/-- The state with a new device. -/
def State.withDev (s : State) (d : Dev) : State := { s with dev := d }

/-- The outcome of a command whose effect is on the device alone. -/
def done (s : State) (d : Dev) : Host.Outcome State Fault Refusal := .next (s.withDev d)

end Sys2Proof.Machine
end

