-- ==== Sys2Proof/Machine/L1.lean ====
section
/-! DEFINITION. The L1 of a core (07 R236, R237) and the delivery of data to its loads (08 R262, R263). -/

namespace Sys2Proof.Machine

open Sys2Proof

/-- Sets of the L1: its size in KiB (R236). -/
def Core.l1Sets (c : Core) : Nat := 640 - c.split

/-- The valid L1 copy of a line (R237). -/
def Core.l1Find (c : Core) (host : Bool) (n : Nat) : Option L1Line :=
  c.l1.find? (fun x => x.host == host && x.line == n && x.epoch == c.epoch)

/-- The line's bytes when it is present with every sector asked for. -/
def Core.l1Hit (c : Core) (host : Bool) (n : Nat) (sectors : BitVec 4) : Option LineData :=
  match c.l1Find host n with
  | some x => if sectors &&& ~~~x.valid = 0 then some x.data else none
  | none => none

/-- A hit makes its way the most recently used. -/
def Core.l1Touch (c : Core) (host : Bool) (n : Nat) : Core :=
  { c with useClock := c.useClock + 1
           l1 := c.l1.map (fun x => if x.host == host && x.line == n && x.epoch == c.epoch then { x with used := c.useClock } else x) }

/-- Replaces the sectors of a valid copy, if there is one. -/
def Core.l1Update (c : Core) (host : Bool) (n : Nat) (mask : BitVec 128) (data : LineData) : Core :=
  { c with l1 := c.l1.map (fun x =>
      if x.host == host && x.line == n && x.epoch == c.epoch then { x with data := mergeLine mask x.data data } else x) }

/-- Drops the core's own copy of a line. -/
def Core.l1Drop (c : Core) (host : Bool) (n : Nat) : Core :=
  { c with l1 := c.l1.filter (fun x => !(x.host == host && x.line == n)) }

/-- A fill: into the line's own way, else an invalid way of the set, else the least recently used of its 8 (R236). -/
def Core.l1Fill (c : Core) (host : Bool) (n : Nat) (sectors : BitVec 4) (data : LineData) : Core :=
  match c.l1Find host n with
  | some _ =>
    { c with useClock := c.useClock + 1
             l1 := c.l1.map (fun x => if x.host == host && x.line == n && x.epoch == c.epoch then
               { x with valid := x.valid ||| sectors, data := mergeLine (sectorMask sectors) x.data data, used := c.useClock } else x) }
  | none =>
    let set := n % c.l1Sets
    let live := c.l1.filter (fun x => x.epoch == c.epoch)
    let mine := live.filter (fun x => x.line % c.l1Sets == set)
    let keep := if mine.length < 8 then live else
      let oldest := mine.foldl (fun m x => min m x.used) c.useClock
      live.filter (fun x => !(x.line % c.l1Sets == set && x.used == oldest))
    { c with useClock := c.useClock + 1
             l1 := keep ++ [{ host := host, line := n, valid := sectors, data := data, epoch := c.epoch, used := c.useClock }] }

/-- One increment of the epoch counter: every line becomes invalid, and every line on its way is not installed; a
wrap to 0 clears every line (R237). It costs one issue slot. -/
def Core.bumpEpoch (c : Core) : Core :=
  let e := c.epoch + 1
  { c with epoch := e, l1 := if e = 0 then [] else c.l1, issued := (c.issued + 1) % 2 ^ 32
           loads := c.loads.map (fun x => { x with fill := false })
           prefetches := c.prefetches.map (fun x => { x with fill := false }) }

/-- Whether an access with this sem and scope is an acquire that increments the epoch (R237): sem ACQ or ACQREL. -/
def bumps (sem scope : Nat) : Bool := (sem == 1 || sem == 3) && decide (scope ≥ 2)

/-- Bytes of a line from a byte offset. -/
def lineBytes (data : LineData) (off len : Nat) : Nat := bytesAt data.toNat off len

/-- Sectors that an access of `len` bytes at byte `off` of a line touches. -/
def accessSectors (off len : Nat) : BitVec 4 := sectorsOf (byteMask off len)

/-- Data of a line reaches a load: the lanes that wait for it get their values; the load ends when none waits, and an
acquire then increments the epoch. -/
def Dev.deliverLoad (d : Dev) (die core id : Nat) (l : Line) (sectors : BitVec 4) (data : LineData) : Dev :=
  let k := coreKey die core
  let co := d.core k
  match co.loads.find? (fun x => x.id == id) with
  | none => d
  | some pl =>
    let width := widthBytes (BitVec.ofNat 3 pl.width)
    let hits := fun (w : Nat × Bool × Nat) =>
      w.2.1 == l.host && w.2.2 / 128 == l.n && (accessSectors (w.2.2 % 128) width &&& ~~~sectors == 0)
    let now := pl.waiting.filter hits
    let later := pl.waiting.filter (fun w => !hits w)
    let d1 := match d.group pl.gkey with
      | none => d
      | some g => d.setGroup pl.gkey (now.foldl (fun (h : Group) (w : Nat × Bool × Nat) =>
          writeLoaded h pl.uni pl.dst w.1 pl.width (lineBytes data (w.2.2 % 128) width)) g)
    let co1 :=
      if pl.scope ≥ 2 then
        (match co.l1Find l.host l.n with
         | some _ => co.l1Update l.host l.n (sectorMask sectors) data
         | none => co)
      else if pl.fill && pl.hint != 2 then co.l1Fill l.host l.n sectors data
      else co
    if later.isEmpty then
      let co2 := { co1 with loads := co1.loads.filter (fun x => x.id != id) }
      d1.setCore k (if bumps pl.sem pl.scope then co2.bumpEpoch else co2)
    else
      d1.setCore k { co1 with loads := co1.loads.map (fun (x : PendLoad) => if x.id = id then { x with waiting := later } else x) }

/-- Data of a line reaches a requester of a near slice. -/
def Dev.deliver (d : Dev) (r : Requester) (l : Line) (sectors : BitVec 4) (data : LineData) : Dev :=
  match r with
  | .load die core id => d.deliverLoad die core id l sectors data
  | .prefetch die core id =>
    let k := coreKey die core
    let co := d.core k
    match co.prefetches.find? (fun x => x.id == id) with
    | none => d
    | some x =>
      let co1 := if x.fill then co.l1Fill l.host l.n sectors data else co
      d.setCore k { co1 with prefetches := co1.prefetches.filter (fun y => y.id != id) }

end Sys2Proof.Machine
end

