-- ==== Sys2Proof/Machine/Order.lean ====
section
/-! DEFINITION. The order of a lane's accesses (07 R229-R238), and the ends of groups, blocks and clusters (03 R91,
R92, R97, R98, 04 R156). -/

namespace Sys2Proof.Machine

open Sys2Proof

/-! ## Earlier accesses -/

/-- Whether an earlier access of some of the lanes is not yet performed at the scope (R238). At GROUP and BLOCK scope
a store is performed once it has updated the L1. [DEDUCED, log 14] -/
def Dev.unperformed (d : Dev) (c : Ctx) (lanes : Lanes) (scope : Nat) : Bool :=
  let co := d.core c.coreKey
  co.loads.any (fun l => l.gkey == c.key && l.lanes &&& lanes != 0)
    || co.outs.any (fun o => o.gkey == c.key && o.lanes &&& lanes != 0 && (decide (scope ≥ 2) || o.kind != .store))

/-- Whether an acquire of some of the lanes has not obtained its value: later accesses wait (R231, R237). -/
def Dev.acquiring (d : Dev) (c : Ctx) (lanes : Lanes) : Bool :=
  let co := d.core c.coreKey
  co.loads.any (fun l => l.gkey == c.key && l.lanes &&& lanes != 0 && l.sem == 1)
    || co.outs.any (fun o => o.gkey == c.key && o.lanes &&& lanes != 0 && (o.sem == 1 || o.sem == 3))

/-! ## Blocks -/

/-- Block of a slot on a core. -/
def Core.block (c : Core) (slot : Nat) : Option Block := c.blocks.find? (fun b => b.slot == slot)

def Core.setBlock (c : Core) (b : Block) : Core :=
  { c with blocks := c.blocks.map (fun x => if x.slot = b.slot then b else x) }

/-- The block of a group. -/
def Dev.blockOf (d : Dev) (key : Nat) (g : Group) : Option Block := (d.core (coreOfKey key)).block g.block

/-- The blocks of a cluster, each with its core's key. -/
def Dev.clusterOf (d : Dev) (die : Nat) (b : Block) : List (Nat × Block) :=
  (d.cores.filter (fun x => x.1 / 256 == die)).flatMap (fun x =>
    (x.2.blocks.filter (fun y => y.q == b.q && y.i == b.i && y.cluster == b.cluster)).map (fun y => (x.1, y)))

/-- The groups of a block, each with its key. -/
def Dev.groupsOf (d : Dev) (ck slot : Nat) : List (Nat × Group) :=
  d.groups.filter (fun x => coreOfKey x.1 == ck && x.2.block == slot)

/-! ## Barriers (R92, R98) -/

/-- A group's paths held at a barrier go on at the next instruction. -/
def Group.leave (g : Group) (held : PathStatus) : Group :=
  let out := g.paths.filter (fun p => p.status == held)
  let g0 := { g with paths := g.paths.filter (fun p => !(p.status == held)) }
  (out.foldl (fun (h : Group) p => h.addReady { p with pc := p.pc + 8 }) g0).settled

/-- Whether every lane of the groups that has not exited is held at the barrier. -/
def allHeld (gs : List (Nat × Group)) (held : PathStatus) : Bool :=
  gs.any (fun x => !x.2.paths.isEmpty) && gs.all (fun x => x.2.paths.all (fun p => p.status == held))

/-- The local accesses of the groups' matrix work have been performed (06 R216). -/
def Dev.localDone (d : Dev) (gs : List (Nat × Group)) : Bool :=
  gs.all (fun x => x.2.paths.isEmpty || !d.localPending x.1)

/-- The groups leave the barrier. -/
def Dev.release (d : Dev) (gs : List (Nat × Group)) (held : PathStatus) : Dev :=
  gs.foldl (fun (e : Dev) x => e.setGroup x.1 (x.2.leave held)) d

/-- SYNC.BLOCK completes when every lane of the block that has not exited has reached one (R92). -/
def Dev.blockBarrier (d : Dev) (ck slot : Nat) : Dev :=
  let gs := d.groupsOf ck slot
  if allHeld gs .heldBlock && d.localDone gs then d.release gs .heldBlock else d

/-- SYNC.CLUSTER completes for the cluster; it is an acquire at CLUSTER scope by every lane (R98, R231, R237). -/
def Dev.clusterBarrier (d : Dev) (die : Nat) (b : Block) : Dev :=
  let bs := d.clusterOf die b
  let gs := bs.flatMap (fun x => d.groupsOf x.1 x.2.slot)
  if allHeld gs .heldCluster && d.localDone gs then
    let d1 := d.release gs .heldCluster
    ((bs.map (fun x => x.1)).eraseDups).foldl (fun (e : Dev) k => e.setCore k (e.core k).bumpEpoch) d1
  else d

/-- Both barriers of a block. -/
def Dev.barriers (d : Dev) (ck slot : Nat) : Dev :=
  let d1 := d.blockBarrier ck slot
  match (d1.core ck).block slot with
  | none => d1
  | some b => d1.clusterBarrier (ck / 256) b

/-! ## Ends -/

/-- A key that no group has: what is left of an ended group's accesses answers to nobody. -/
def noGroup : Nat := 2 ^ 40

/-- Whether some bulk copy uses the local memory of a block, given as core key · 32 + slot. -/
def Dev.copying (d : Dev) (b : Nat) : Bool :=
  d.cores.any (fun x => x.2.copies.any (fun y => y.block == b || y.cblock == b))

/-- The blocks of a cluster whose last block has ended give up local memory and block slot, each once its bulk copies
are complete (R91, R97, R156). -/
def Dev.freeCluster (d : Dev) (die : Nat) (b : Block) : Dev :=
  let bs := d.clusterOf die b
  if bs.all (fun x => x.2.ended) then
    bs.foldl (fun (e : Dev) x =>
      let co := e.core x.1
      if e.copying (x.1 * 32 + x.2.slot) then e
      else e.setCore x.1 { co with blocks := co.blocks.filter (fun y => y.slot != x.2.slot) }) d
  else d

/-- A killed block that has ended gives up its memory and slot without waiting for its cluster (R120). -/
def Dev.freeKilled (d : Dev) (ck slot : Nat) : Dev :=
  let co := d.core ck
  match co.block slot with
  | none => d
  | some b =>
    if b.killed && b.ended && !d.copying (ck * 32 + slot) then
      d.setCore ck { co with blocks := co.blocks.filter (fun y => y.slot != slot) }
    else d

/-- A block ends when all its groups have ended (R91). -/
def Dev.endBlock (d : Dev) (ck slot : Nat) : Dev :=
  if (d.groupsOf ck slot).isEmpty then
    match (d.core ck).block slot with
    | none => d
    | some b =>
      if b.ended then d
      else if b.killed then
        let d1 := match d.run b.q b.i with
          | some r => d.setRun { r with live := r.live - 1 }
          | none => d
        ((d1.setCore ck ((d1.core ck).setBlock { b with ended := true })).freeKilled ck slot).freeCluster (ck / 256) b
      else
        let b1 := { b with ended := true }
        let d1 := d.setCore ck ((d.core ck).setBlock b1)
        let d2 := match d1.run b.q b.i with
          | some r => d1.setRun { r with done := r.done + 1, live := r.live - 1 }
          | none => d1
        d2.freeCluster (ck / 256) b1
  else d

/-- A group that has ended leaves its slot once its matrix-unit work is done (R91, 06 R223). -/
def Dev.reapGroup (d : Dev) (key : Nat) : Dev :=
  match d.group key with
  | none => d
  | some g =>
    if g.ended && (d.munit (key / 16)).all (fun m => m.gkey != key) then
      let ck := coreOfKey key
      let d1 := d.delGroup key
      let co := d1.core ck
      let co1 := { co with loads := co.loads.filter (fun l => l.gkey != key)
                           outs := co.outs.map (fun o => if o.gkey = key then { o with gkey := noGroup, dst := none } else o)
                           copies := co.copies.map (fun x => if x.gkey = key then { x with gkey := noGroup } else x) }
      (d1.setCore ck co1).endBlock ck g.block
    else d

/-- After lanes have exited: the group ends when none is left, and barriers may complete (R91, R92, R98). -/
def Dev.afterExit (d : Dev) (key : Nat) : Dev :=
  match d.group key with
  | none => d
  | some g =>
    let d1 := if g.paths.isEmpty then (d.setGroup key { g with ended := true }).reapGroup key else d
    d1.barriers (coreOfKey key) g.block

end Sys2Proof.Machine
end

