-- ==== Sys2Proof/Machine/Flags.lean ====
section
/-! DEFINITION. The flags of sr_flags and the operations on them (04 R131, R132, 05 R194-R196). -/

namespace Sys2Proof.Machine

/-- sr_flags bit of each flag (R131). -/
def flagInvalid   : Word := 0x001#32
def flagDivByZero : Word := 0x002#32
def flagOverflow  : Word := 0x004#32
def flagUnderflow : Word := 0x008#32
def flagInexact   : Word := 0x010#32
def flagMatrixDiverged : Word := 0x100#32

/-- The bits of sr_flags that exist (R131). -/
def flagsMask : Word := 0x11F#32

/-- A flag raised when a condition holds. -/
def flagIf (b : Bool) (f : Word) : Word := if b then f else 0

/-- The write-one-to-clear of sr_flags (R130, R131). -/
def flagsClear (flags ones : Word) : Word := flags &&& ~~~(ones &&& flagsMask)

end Sys2Proof.Machine
end

