-- ==== Sys2Proof/Machine/Fp.lean ====
section
/-! DEFINITION. Number formats, rounding and exact accumulation (05 R169-R195): values as exact numbers, one
rounding operation, one accumulation operation, and the functions of R150. -/

namespace Sys2Proof.Machine

/-- An exact magnitude with its sign: m · 2^e, and strictly between m · 2^e and (m + 1) · 2^e when `sticky`. -/
structure Exact where
  neg    : Bool
  m      : Nat
  e      : Int
  sticky : Bool := false
  deriving DecidableEq, Repr

/-- A value of a format (R170). `nan true` raises invalid: a signalling NaN, or a product 0 × ∞ (R189). -/
inductive Num where
  | nan (inv : Bool)
  | inf (neg : Bool)
  | fin (x : Exact)
  deriving DecidableEq, Repr

/-- How a format treats its top exponent code (R169, R170). -/
inductive FStyle where
  | ieee | e4m3 | finite | e8m0 | ue5m3
  deriving DecidableEq, Repr

/-- One format of R169: `maxQ · 2^maxE` is its largest finite value, `emin` the exponent of its smallest normal. -/
structure Fmt where
  width : Nat
  man   : Nat
  bias  : Int
  emin  : Int
  style : FStyle
  maxQ  : Nat
  maxE  : Int
  canon : Nat
  deriving DecidableEq, Repr

def fp64 : Fmt := ⟨64, 52, 1023, -1022, .ieee, 2^53 - 1, 971, 0x7FF8000000000000⟩
def fp32 : Fmt := ⟨32, 23, 127, -126, .ieee, 2^24 - 1, 104, 0x7FC00000⟩
def fp16 : Fmt := ⟨16, 10, 15, -14, .ieee, 2^11 - 1, 5, 0x7E00⟩
def bf16 : Fmt := ⟨16, 7, 127, -126, .ieee, 2^8 - 1, 120, 0x7FC0⟩
def e4m3 : Fmt := ⟨8, 3, 7, -6, .e4m3, 14, 5, 0x7F⟩
def e5m2 : Fmt := ⟨8, 2, 15, -14, .ieee, 7, 13, 0x7E⟩
def e2m3 : Fmt := ⟨6, 3, 1, 0, .finite, 15, -1, 0⟩
def e3m2 : Fmt := ⟨6, 2, 3, -2, .finite, 7, 2, 0⟩
def e2m1 : Fmt := ⟨4, 1, 1, 0, .finite, 3, 1, 0⟩
def e8m0 : Fmt := ⟨8, 0, 127, -127, .e8m0, 1, 127, 0xFF⟩
def ue5m3 : Fmt := ⟨8, 3, 15, -14, .ue5m3, 14, 13, 0xFF⟩

/-- A rounding mode (R179); `rs` carries its 32 random bits (R186). -/
inductive Rnd where
  | rn | rz | ru | rd
  | rs (r : Nat)
  deriving DecidableEq, Repr

/-- An encoded result and the flags its operation raises. -/
structure FpRes where
  code  : Nat
  flags : Word
  deriving DecidableEq, Repr

/-- Bits [hi:lo] of a number. -/
def bitsOf (n hi lo : Nat) : Nat := (n >>> lo) % 2 ^ (hi + 1 - lo)

/-- The sign bit of a code; E8M0 and UE5M3 have none (R169). -/
def Fmt.signOf (f : Fmt) (code : Nat) : Bool :=
  match f.style with
  | .e8m0 | .ue5m3 => false
  | _ => code.testBit (f.width - 1)

/-- The value of a code (R170, R172). -/
def Fmt.decode (f : Fmt) (code0 : Nat) : Num :=
  let code := code0 % 2 ^ f.width
  let neg := f.signOf code
  let mag := match f.style with
    | .e8m0 | .ue5m3 => code
    | _ => code % 2 ^ (f.width - 1)
  let ef := mag >>> f.man
  let mf := mag % 2 ^ f.man
  let fin : Num :=
    if f.style = .e8m0 then .fin ⟨false, 1, (ef : Int) - 127, false⟩
    else if ef = 0 then .fin ⟨neg, mf, f.emin - f.man, false⟩
    else .fin ⟨neg, mf + 2 ^ f.man, (ef : Int) - f.bias - f.man, false⟩
  match f.style with
  | .ieee =>
    if ef = 2 ^ (f.width - 1 - f.man) - 1 then
      if mf = 0 then .inf neg
      else .nan (f.width > 8 && !mf.testBit (f.man - 1))
    else fin
  | .e4m3 => if mag = 0x7F then .nan false else fin
  | .e8m0 | .ue5m3 => if code = 0xFF then .nan false else fin
  | .finite => fin

/-- Whether a magnitude with fraction `rem / 2^sh` (plus a sticky part) above the even-or-odd integer `q` is
rounded away from zero (R179, R187). -/
def roundsAway (mode : Rnd) (neg : Bool) (q rem sh : Nat) (sticky : Bool) : Bool :=
  let inexact := rem ≠ 0 || sticky
  match mode with
  | .rn => decide (2 * rem > 2 ^ sh) || (2 * rem == 2 ^ sh && (sticky || q % 2 == 1))
  | .rz => false
  | .ru => inexact && !neg
  | .rd => inexact && neg
  | .rs r => decide (((rem <<< 32) >>> sh) + r ≥ 2 ^ 32)

/-- The magnitude of `x` in units of 2^u, rounded to an integer, and whether it differs from the exact one. -/
def roundAt (mode : Rnd) (x : Exact) (u : Int) : Nat × Bool :=
  if x.e ≥ u then (x.m <<< (x.e - u).toNat, x.sticky)
  else
    let sh := (u - x.e).toNat
    let q := x.m >>> sh
    let rem := x.m % 2 ^ sh
    let inexact := rem ≠ 0 || x.sticky
    (if roundsAway mode x.neg q rem sh x.sticky then q + 1 else q, inexact)

/-- The code of the magnitude q · 2^u with its sign, q below 2^(man + 1). -/
def Fmt.compose (f : Fmt) (neg : Bool) (q : Nat) (u : Int) : Nat :=
  let s := match f.style with
    | .e8m0 | .ue5m3 => 0
    | _ => if neg then 2 ^ (f.width - 1) else 0
  let body :=
    if q < 2 ^ f.man then q
    else (u + f.man + f.bias).toNat * 2 ^ f.man + (q - 2 ^ f.man)
  s + body

def Fmt.zero (f : Fmt) (neg : Bool) : Nat := f.compose neg 0 (f.emin - f.man)

/-- The largest finite value with a sign. -/
def Fmt.maxCode (f : Fmt) (neg : Bool) : Nat := f.compose neg f.maxQ f.maxE

/-- Infinity of a format that has one. -/
def Fmt.infCode (f : Fmt) (neg : Bool) : Nat :=
  (2 ^ (f.width - 1 - f.man) - 1) * 2 ^ f.man + (if neg then 2 ^ (f.width - 1) else 0)

/-- The overflowed result (R180). -/
def Fmt.overflowed (f : Fmt) (mode : Rnd) (sat neg : Bool) : Nat :=
  let away := match mode with
    | .rn | .rs _ => true
    | .rz => false
    | .ru => !neg
    | .rd => neg
  match f.style with
  | .ieee => if away && !sat then f.infCode neg else f.maxCode neg
  | .finite => f.maxCode neg
  | _ => if away && !sat then f.canon else f.maxCode neg

/-- Rounding of a nonzero exact value to a format, with its flags (R179, R180, R194). [DEDUCED, log 12] -/
def Fmt.roundNonzero (f : Fmt) (mode : Rnd) (sat : Bool) (x : Exact) : FpRes :=
  let p : Int := (x.m.log2 : Int) + x.e
  let u0 : Int := p - f.man
  let umin : Int := f.emin - f.man
  let u := max u0 umin
  let (q, inexact) := roundAt mode x u
  let (qn, un) := if q = 2 ^ (f.man + 1) then (q / 2, u + 1) else (q, u)
  if un > f.maxE || (un = f.maxE && qn > f.maxQ) then
    ⟨f.overflowed mode sat x.neg, flagOverflow ||| flagInexact⟩
  else
    let (qt, _) := roundAt mode x u0
    let tiny := decide (u0 < umin) && decide (qt < 2 ^ ((umin - u0).toNat + f.man))
    let fl := (if inexact then flagInexact else 0) ||| (if inexact && tiny then flagUnderflow else 0)
    if f.style = .e8m0 && qn = 0 then ⟨0xFF, fl⟩
    else ⟨f.compose x.neg qn un, fl⟩

/-- Rounding of an exact value of a floating-point operation whose zero has the sign of `x` (R179-R181). -/
def Fmt.round (f : Fmt) (mode : Rnd) (sat : Bool) (x : Exact) : FpRes :=
  if x.m = 0 && !x.sticky then ⟨f.zero x.neg, 0⟩ else f.roundNonzero mode sat x

/-! ## Exact accumulation -/

/-- The exact product of two values (R188, R189). -/
def Num.mul : Num → Num → Num
  | .nan a, .nan b => .nan (a || b)
  | .nan a, _ => .nan a
  | _, .nan b => .nan b
  | .inf a, .inf b => .inf (a != b)
  | .inf a, .fin x => if x.m = 0 then .nan true else .inf (a != x.neg)
  | .fin x, .inf b => if x.m = 0 then .nan true else .inf (x.neg != b)
  | .fin x, .fin y => .fin ⟨x.neg != y.neg, x.m * y.m, x.e + y.e, false⟩

/-- The least exponent of the finite terms. -/
def minExp : List Num → Option Int
  | [] => none
  | .fin x :: ts => match minExp ts with
    | none => some x.e
    | some e => some (min x.e e)
  | _ :: ts => minExp ts

/-- The sum of the finite terms in units of 2^e. -/
def sumAt (e : Int) : List Num → Int
  | [] => 0
  | .fin x :: ts =>
    let v : Int := (x.m <<< (x.e - e).toNat : Nat)
    (if x.neg then -v else v) + sumAt e ts
  | _ :: ts => sumAt e ts

def Num.isZero (neg : Bool) : Num → Bool
  | .fin x => x.m == 0 && !x.sticky && (x.neg == neg)
  | _ => false

/-- The sign of an exactly zero sum (R181). -/
def zeroSign (mode : Rnd) (ts : List Num) : Bool :=
  if ts.all (Num.isZero true) then true
  else if ts.all (Num.isZero false) then false
  else mode == .rd

/-- Exact accumulation E of terms into a format (R188, R189). -/
def Fmt.accumulate (f : Fmt) (mode : Rnd) (ts : List Num) : FpRes :=
  if ts.any (fun t => match t with | .nan _ => true | _ => false) then
    ⟨f.canon, if ts.any (fun t => t == .nan true) then flagInvalid else 0⟩
  else if ts.any (fun t => t == .inf true) && ts.any (fun t => t == .inf false) then ⟨f.canon, flagInvalid⟩
  else if ts.any (fun t => t == .inf true) then ⟨f.infCode true, 0⟩
  else if ts.any (fun t => t == .inf false) then ⟨f.infCode false, 0⟩
  else
    let e := (minExp ts).getD 0
    let v := sumAt e ts
    if v = 0 then ⟨f.zero (zeroSign mode ts), 0⟩
    else f.roundNonzero mode false ⟨decide (v < 0), v.natAbs, e, false⟩

/-! ## Minimum, maximum, comparison -/

/-- Order of the non-NaN codes with -0 below +0 (R150). -/
def Fmt.key (f : Fmt) (code : Nat) : Int :=
  let mag := code % 2 ^ (f.width - 1)
  if f.signOf code then -(mag : Int) - 1 else mag

def Num.isNan : Num → Bool
  | .nan _ => true
  | _ => false

def Num.isSnan : Num → Bool
  | .nan true => true
  | _ => false

/-- FMIN (`isMax = false`) and FMAX (R150, R194, R195). -/
def Fmt.minMax (f : Fmt) (isMax : Bool) (a b : Nat) : FpRes :=
  let x := f.decode a
  let y := f.decode b
  if x.isNan || y.isNan then ⟨f.canon, if x.isSnan || y.isSnan then flagInvalid else 0⟩
  else if decide (f.key a < f.key b) != isMax then ⟨a % 2 ^ f.width, 0⟩
  else ⟨b % 2 ^ f.width, 0⟩

/-- FSETP (R149, R194): the comparison and its flags; cmp as R142 numbers it. -/
def Fmt.compare (f : Fmt) (cmp : Nat) (a b : Nat) : Bool × Word :=
  let x := f.decode a
  let y := f.decode b
  let un := x.isNan || y.isNan
  let ka : Int := if f.signOf a then -((a % 2 ^ (f.width - 1) : Nat) : Int) else (a % 2 ^ (f.width - 1) : Nat)
  let kb : Int := if f.signOf b then -((b % 2 ^ (f.width - 1) : Nat) : Int) else (b % 2 ^ (f.width - 1) : Nat)
  let r := match cmp with
    | 0 => !un && ka == kb
    | 1 => un || ka != kb
    | 2 => !un && decide (ka < kb)
    | 3 => !un && decide (ka ≤ kb)
    | 4 => !un && decide (ka > kb)
    | 5 => !un && decide (ka ≥ kb)
    | 6 => !un
    | _ => un
  let inv := x.isSnan || y.isSnan || (un && (cmp == 2 || cmp == 3 || cmp == 4 || cmp == 5))
  (r, if inv then flagInvalid else 0)

/-! ## Division and roots -/

/-- The exact quotient of two nonzero magnitudes to at least 160 bits. -/
def quotient (a b : Exact) : Exact :=
  let k := b.m.log2 + 160
  ⟨a.neg != b.neg, (a.m <<< k) / b.m, a.e - b.e - k, (a.m <<< k) % b.m ≠ 0⟩

/-- ⌊√n⌋, deciding the bits of the root from bit `k - 1` down. -/
def isqrtFrom (n : Nat) : Nat → Nat → Nat
  | 0, r => r
  | k + 1, r => isqrtFrom n k (if (r + 2 ^ k) * (r + 2 ^ k) ≤ n then r + 2 ^ k else r)

def isqrt (n : Nat) : Nat := isqrtFrom n (n.log2 / 2 + 1) 0

/-- The exact square root of a positive magnitude to at least 160 bits. -/
def squareRoot (x : Exact) : Exact :=
  let k : Nat := if (x.e % 2 = 0) then 320 else 321
  let n := x.m <<< k
  let r := isqrt n
  ⟨false, r, (x.e - k) / 2, r * r ≠ n⟩

/-- FDIV (R150, R194). -/
def Fmt.div (f : Fmt) (a b : Num) : FpRes :=
  match a, b with
  | .nan i, .nan j => ⟨f.canon, if i || j then flagInvalid else 0⟩
  | .nan i, _ => ⟨f.canon, if i then flagInvalid else 0⟩
  | _, .nan j => ⟨f.canon, if j then flagInvalid else 0⟩
  | .inf _, .inf _ => ⟨f.canon, flagInvalid⟩
  | .inf s, .fin y => ⟨f.infCode (s != y.neg), 0⟩
  | .fin x, .inf s => ⟨f.zero (x.neg != s), 0⟩
  | .fin x, .fin y =>
    if y.m = 0 then
      if x.m = 0 then ⟨f.canon, flagInvalid⟩ else ⟨f.infCode (x.neg != y.neg), flagDivByZero⟩
    else if x.m = 0 then ⟨f.zero (x.neg != y.neg), 0⟩
    else f.roundNonzero .rn false (quotient x y)

/-- FRCP is 1 ÷ x (R150). -/
def Fmt.rcp (f : Fmt) (a : Num) : FpRes := f.div (.fin ⟨false, 1, 0, false⟩) a

/-- FSQRT (R150, R194). -/
def Fmt.sqrt (f : Fmt) (a : Num) : FpRes :=
  match a with
  | .nan i => ⟨f.canon, if i then flagInvalid else 0⟩
  | .inf true => ⟨f.canon, flagInvalid⟩
  | .inf false => ⟨f.infCode false, 0⟩
  | .fin x =>
    if x.m = 0 then ⟨f.zero x.neg, 0⟩
    else if x.neg then ⟨f.canon, flagInvalid⟩
    else f.roundNonzero .rn false (squareRoot x)

/-- FRSQ (R150, R194): 1 ÷ √x, exact to the last bit of ⌊√(2^k ÷ x)⌋. -/
def Fmt.rsq (f : Fmt) (a : Num) : FpRes :=
  match a with
  | .nan i => ⟨f.canon, if i then flagInvalid else 0⟩
  | .inf true => ⟨f.canon, flagInvalid⟩
  | .inf false => ⟨f.zero false, 0⟩
  | .fin x =>
    if x.m = 0 then ⟨f.infCode x.neg, flagDivByZero⟩
    else if x.neg then ⟨f.canon, flagInvalid⟩
    else
      let k : Nat := if (x.e % 2 = 0) then 480 else 481
      let n := 2 ^ k / x.m
      let r := isqrt n
      f.roundNonzero .rn false ⟨false, r, (-x.e - k) / 2, r * r * x.m ≠ 2 ^ k⟩

/-! ## The fixed functions of R150

Each is evaluated in fixed point with W fraction bits, the result lying within 2^24 units of the approximation; the
result is taken when both ends of that interval round alike, and the precision grows otherwise. The functions are
irrational wherever they are not handled as exact, so that both ends are inexact. -/

/-- Both ends of an interval of half width 2^24 units of 2^-W around v, rounded; none when they differ. -/
def Fmt.roundApprox (f : Fmt) (neg : Bool) (v w : Nat) : Option FpRes :=
  if v ≤ 2 ^ 25 then none
  else
    let lo := f.roundNonzero .rn false ⟨neg, v - 2 ^ 24, -(w : Int), true⟩
    let hi := f.roundNonzero .rn false ⟨neg, v + 2 ^ 24, -(w : Int), true⟩
    if lo = hi then some lo else none

/-- Sum of t^(2j+1)/(2j+1) in fixed point: atanh. -/
def atanhSum (w z2 : Nat) : Nat → Nat → Nat → Nat → Nat
  | 0, _, _, acc => acc
  | fuel + 1, t, d, acc =>
    if t = 0 then acc else atanhSum w z2 fuel ((t * z2) >>> w) (d + 2) (acc + t / d)

/-- ln 2 in fixed point: 2 · atanh (1/3). -/
def fxLn2 (w : Nat) : Nat :=
  2 * atanhSum w (2 ^ w / 9) w (2 ^ w / 3) 1 0

/-- Taylor sum of the exponential: adds t, then t·y/k. -/
def expSum (w y : Nat) : Nat → Nat → Nat → Nat → Nat
  | 0, _, _, acc => acc
  | fuel + 1, t, k, acc =>
    if t = 0 then acc else expSum w y fuel (((t * y) >>> w) / k) (k + 1) (acc + t)

/-- e^y for 0 ≤ y < 1, in fixed point. -/
def fxExp (w y : Nat) : Nat := expSum w y w (2 ^ w) 1 0

/-- Alternating sum of the arctangent of 1/n. -/
def atanInvSum (n2 : Nat) : Nat → Nat → Nat → Bool → Int → Int
  | 0, _, _, _, acc => acc
  | fuel + 1, t, d, s, acc =>
    if t = 0 then acc
    else atanInvSum n2 fuel (t / n2) (d + 2) (!s) (if s then acc - (t / d : Nat) else acc + (t / d : Nat))

/-- π in fixed point (Machin). -/
def fxPi (w : Nat) : Nat :=
  (16 * atanInvSum 25 w (2 ^ w / 5) 1 false 0 - 4 * atanInvSum (239 * 239) w (2 ^ w / 239) 1 false 0).toNat

/-- Alternating Taylor sum with terms t, t·y²/(k(k+1)), ...: sine from t = y, k = 2; cosine from t = 1, k = 1. -/
def trigSum (w y2 : Nat) : Nat → Nat → Nat → Bool → Int → Int
  | 0, _, _, _, acc => acc
  | fuel + 1, t, k, s, acc =>
    if t = 0 then acc
    else trigSum w y2 fuel (((t * y2) >>> w) / (k * (k + 1))) (k + 2) (!s) (if s then acc - t else acc + t)

/-- x in fixed point with w fraction bits, cut. -/
def fxOf (x : Exact) (w : Nat) : Nat :=
  if x.e + w ≥ 0 then x.m <<< (x.e + w).toNat else x.m >>> (-(x.e + w)).toNat

/-- 2^(frac) for the fraction of a non-integer x, as (⌊x⌋, 2^(x - ⌊x⌋) in fixed point). -/
def fxEx2 (x : Exact) (w : Nat) : Int × Nat :=
  let v : Int := if x.neg then -(fxOf x w : Int) else fxOf x w
  let n := v / (2 ^ w : Nat)
  let fr := (v % (2 ^ w : Nat)).toNat
  (n, fxExp w ((fr * fxLn2 w) >>> w))

/-- Tries the precisions 320, 640, 1280 in turn. -/
def growing (g : Nat → Option FpRes) (last : FpRes) : FpRes :=
  match g 320 with
  | some r => r
  | none => match g 640 with
    | some r => r
    | none => (g 1280).getD last

/-- An exact value scaled by 2^n before its rounding. -/
def Fmt.roundScaled (f : Fmt) (neg : Bool) (v w : Nat) (n : Int) : Option FpRes :=
  let lo := f.roundNonzero .rn false ⟨neg, v - 2 ^ 24, n - w, true⟩
  let hi := f.roundNonzero .rn false ⟨neg, v + 2 ^ 24, n - w, true⟩
  if lo = hi then some lo else none

def Exact.isInt (x : Exact) : Bool := decide (x.e ≥ 0) || x.m % 2 ^ (-x.e).toNat == 0

/-- FEX2 (R150, R220). -/
def Fmt.ex2 (f : Fmt) (a : Num) : FpRes :=
  match a with
  | .nan i => ⟨f.canon, if i then flagInvalid else 0⟩
  | .inf true => ⟨f.zero false, 0⟩
  | .inf false => ⟨f.infCode false, 0⟩
  | .fin x =>
    if (x.m.log2 : Int) + x.e ≥ 13 && x.m ≠ 0 then
      f.roundNonzero .rn false ⟨false, 1, if x.neg then -8192 else 8192, false⟩
    else if x.isInt then
      let n : Int := fxOf x 0
      f.roundNonzero .rn false ⟨false, 1, if x.neg then -n else n, false⟩
    else
      let last : FpRes := ⟨f.canon, 0⟩
      if (x.m.log2 : Int) + x.e < -100 then
        -- 2^x is within 2^-99 of 1, above or below
        if x.neg then f.roundNonzero .rn false ⟨false, 2 ^ 200 - 1, -200, true⟩
        else f.roundNonzero .rn false ⟨false, 2 ^ 200, -200, true⟩
      else growing (fun w => let (n, v) := fxEx2 x w; f.roundScaled false v w n) last

/-- log₂ of x = m · 2^e in fixed point, with its sign. -/
def fxLg2 (x : Exact) (w : Nat) : Int :=
  let p : Int := (x.m.log2 : Int) + x.e
  let y := fxOf ⟨false, x.m, x.e - p, false⟩ w           -- 1 ≤ y < 2
  let z := ((y - 2 ^ w) <<< w) / (y + 2 ^ w)
  let ln := 2 * atanhSum w ((z * z) >>> w) w z 1 0
  p * (2 ^ w : Nat) + ((ln <<< w) / fxLn2 w : Nat)

/-- FLG2 (R150, R194). -/
def Fmt.lg2 (f : Fmt) (a : Num) : FpRes :=
  match a with
  | .nan i => ⟨f.canon, if i then flagInvalid else 0⟩
  | .inf true => ⟨f.canon, flagInvalid⟩
  | .inf false => ⟨f.infCode false, 0⟩
  | .fin x =>
    if x.m = 0 then ⟨f.infCode true, flagDivByZero⟩
    else if x.neg then ⟨f.canon, flagInvalid⟩
    else if x.m = 2 ^ x.m.log2 then
      let n : Int := (x.m.log2 : Int) + x.e
      f.round .rn false ⟨decide (n < 0), n.natAbs, 0, false⟩
    else growing (fun w => let v := fxLg2 x w; f.roundApprox (decide (v < 0)) v.natAbs w) ⟨f.canon, 0⟩

/-- sin (`isCos = false`) or cos of the magnitude of x, in fixed point. -/
def fxTrig (isCos : Bool) (x : Exact) (w0 : Nat) : Int × Nat :=
  let w := w0 + 160
  let v := fxOf x w
  let half := fxPi w / 2
  let k := v / half
  let y := v % half
  let y2 := (y * y) >>> w
  let s := trigSum w y2 w y 2 false 0
  let c := trigSum w y2 w (2 ^ w) 1 false 0
  let r : Int := match (k + if isCos then 1 else 0) % 4 with
    | 0 => s
    | 1 => c
    | 2 => -s
    | _ => -c
  (r >>> 128, w - 128)

/-- FSIN and FCOS (R150, R194). -/
def Fmt.trig (f : Fmt) (isCos : Bool) (a : Num) : FpRes :=
  match a with
  | .nan i => ⟨f.canon, if i then flagInvalid else 0⟩
  | .inf _ => ⟨f.canon, flagInvalid⟩
  | .fin x =>
    if x.m = 0 then (if isCos then f.round .rn false ⟨false, 1, 0, false⟩ else ⟨f.zero x.neg, 0⟩)
    else growing (fun w =>
      let (v, wv) := fxTrig isCos x w
      let neg := if isCos then decide (v < 0) else decide (v < 0) != x.neg
      f.roundApprox neg v.natAbs wv) ⟨f.canon, 0⟩

/-- e^y for any 0 ≤ y < 64 in fixed point, as (n, v) with the value v · 2^n. -/
def fxExpWide (w y : Nat) : Nat × Nat :=
  let l := fxLn2 w
  (y / l, fxExp w (y % l))

/-- tanh of a magnitude below 16, in fixed point: (e^2x - 1) ÷ (e^2x + 1). -/
def fxTanh (x : Exact) (w0 : Nat) : Nat × Nat :=
  let w := w0 + 160
  let (n, v) := fxExpWide w (2 * fxOf x w)
  let ev := v <<< n
  ((((ev - 2 ^ w) <<< w) / (ev + 2 ^ w)) >>> 128, w - 128)

/-- FTANH (R150). -/
def Fmt.tanh (f : Fmt) (a : Num) : FpRes :=
  match a with
  | .nan i => ⟨f.canon, if i then flagInvalid else 0⟩
  | .inf s => f.round .rn false ⟨s, 1, 0, false⟩
  | .fin x =>
    if x.m = 0 then ⟨f.zero x.neg, 0⟩
    else if (x.m.log2 : Int) + x.e ≥ 5 then f.roundNonzero .rn false ⟨x.neg, 2 ^ 200 - 1, -200, true⟩
    else growing (fun w => let (v, wv) := fxTanh x w; f.roundApprox x.neg v wv) ⟨f.canon, 0⟩

end Sys2Proof.Machine
end

