-- ==== Sys2Proof/Machine/Sump.lean ====
section
/-! DEFINITION. Values of atomics (04 R157) and of reduction lines (05 R192, R193, 09 R284, R290), and the spill
record (09 R301). -/

namespace Sys2Proof.Machine

/-! ## Atomics -/

/-- Bytes of an operand of an atomic type code (R142). -/
def atomWidth (t : Nat) : Nat := if t == 2 || t == 3 || t == 5 then 8 else 4

/-- A floating-point operation on each element of a word of the type. -/
def atomFloat (t : Nat) (f : Fmt → Nat → Nat → Nat) (a b : Nat) : Nat :=
  match t with
  | 4 => f fp32 a b
  | 5 => f fp64 a b
  | 6 => f fp16 (a % 65536) (b % 65536) + 65536 * f fp16 (a / 65536) (b / 65536)
  | _ => f bf16 (a % 65536) (b % 65536) + 65536 * f bf16 (a / 65536) (b / 65536)

/-- The new value of a location (R157): addition rounds in RN, floating-point extremes follow R150. -/
def atomApply (op : AtomOp) (t old b c : Nat) : Nat :=
  let n := 8 * atomWidth t
  let sgn := t % 2 == 1
  let v := fun (x : Nat) => if sgn then signed n x else (x % 2 ^ n : Nat)
  match op with
  | .exch => b % 2 ^ n
  | .cas => if old % 2 ^ n = c % 2 ^ n then b % 2 ^ n else old % 2 ^ n
  | .and => (old &&& b) % 2 ^ n
  | .or => (old ||| b) % 2 ^ n
  | .xor => (old ^^^ b) % 2 ^ n
  | .add =>
    if t < 4 then (old + b) % 2 ^ n
    else atomFloat t (fun f x y => (f.accumulate .rn [f.decode x, f.decode y]).code) old b
  | .min =>
    if t < 4 then (if v b < v old then b % 2 ^ n else old % 2 ^ n)
    else atomFloat t (fun f x y => (f.minMax false x y).code) old b
  | .max =>
    if t < 4 then (if v b > v old then b % 2 ^ n else old % 2 ^ n)
    else atomFloat t (fun f x y => (f.minMax true x y).code) old b

/-- The lanes of an atomic in ascending order on a line: the new line and each lane's old value (R158). -/
def atomLanes (op : AtomOp) (t : Nat) : List AtomLane → Nat → Nat × List (Nat × DWord)
  | [], line => (line, [])
  | l :: ls, line =>
    let w := atomWidth t
    let old := bytesAt line l.off w
    let line1 := putBytes line l.off w (atomApply op t old l.b.toNat l.c.toNat)
    let (line2, olds) := atomLanes op t ls line1
    (line2, (l.lane, BitVec.ofNat 64 old) :: olds)

/-- The bytes of a line that an atomic's lanes address. -/
def atomMask (t : Nat) (ls : List AtomLane) : BitVec 128 :=
  ls.foldl (fun m l => m ||| byteMask l.off (atomWidth t)) 0

/-! ## Reduction lines -/

/-- Class codes (R284). -/
def RedClass.code : RedClass → Nat
  | .addF => 1 | .addI32 => 2 | .addI64 => 3 | .minF => 4 | .maxF => 5 | .minS32 => 6 | .maxS32 => 7
  | .minU32 => 8 | .maxU32 => 9 | .minS64 => 10 | .maxS64 => 11 | .minU64 => 12 | .maxU64 => 13

def RedClass.ofCode (n : Nat) : Option RedClass :=
  [RedClass.addF, .addI32, .addI64, .minF, .maxF, .minS32, .maxS32, .minU32, .maxU32, .minS64, .maxS64, .minU64,
    .maxU64].find? (fun c => c.code == n)

/-- Bytes of an element. -/
def RedClass.width : RedClass → Nat
  | .addI64 | .minS64 | .maxS64 | .minU64 | .maxU64 => 8
  | _ => 4

/-- Elements per line. -/
def RedClass.count (c : RedClass) : Nat := 128 / c.width

/-- The bits of a finite FP32 value in units of 2^-149, modulo 2^317 (R192). -/
def shadowUnits (x : Exact) : Nat :=
  let u : Int := (x.m <<< (x.e + 149).toNat : Nat)
  ((if x.neg then -u else u) % (2 ^ 317 : Nat)).toNat

/-- A contribution added to the shadow of R192. -/
def shadowAdd (s : Nat) (v : Nat) : Nat :=
  let acc := s % 2 ^ 317
  let fl := s / 2 ^ 317
  match fp32.decode v with
  | .fin x => (acc + shadowUnits x) % 2 ^ 317 + fl * 2 ^ 317
  | .inf false => acc + (fl ||| 1) * 2 ^ 317
  | .inf true => acc + (fl ||| 2) * 2 ^ 317
  | .nan _ => acc + (fl ||| 4) * 2 ^ 317

/-- The element field when the line opens from value v (R290). -/
def RedClass.opened (c : RedClass) (v : Nat) : BitVec 320 :=
  match c with
  | .addF => BitVec.ofNat 320 (shadowAdd 0 v)
  | .minF => BitVec.ofNat 320 (if (fp32.decode v).isNan then 2 ^ 32 + fp32.infCode false else v)
  | .maxF => BitVec.ofNat 320 (if (fp32.decode v).isNan then 2 ^ 32 + fp32.infCode true else v)
  | _ => BitVec.ofNat 320 (v % 2 ^ (8 * c.width))

/-- The smaller or larger of two integers of `n` bits. -/
def pickInt (isMax sgn : Bool) (n a b : Nat) : Nat :=
  let v := fun (x : Nat) => if sgn then signed n x else (x % 2 ^ n : Nat)
  if decide (v b < v a) != isMax then b % 2 ^ n else a % 2 ^ n

/-- The element field after a contribution (R192, R193). -/
def RedClass.add (c : RedClass) (field : BitVec 320) (v : Nat) : BitVec 320 :=
  let f := field.toNat
  let fm := fun (isMax : Bool) =>
    if (fp32.decode v).isNan then f % 2 ^ 32 + 2 ^ 32
    else f / 2 ^ 32 * 2 ^ 32 + (fp32.minMax isMax (f % 2 ^ 32) v).code
  BitVec.ofNat 320 (match c with
    | .addF => shadowAdd f v
    | .addI32 => (f + v) % 2 ^ 32
    | .addI64 => (f + v) % 2 ^ 64
    | .minF => fm false
    | .maxF => fm true
    | .minS32 => pickInt false true 32 f v
    | .maxS32 => pickInt true true 32 f v
    | .minU32 => pickInt false false 32 f v
    | .maxU32 => pickInt true false 32 f v
    | .minS64 => pickInt false true 64 f v
    | .maxS64 => pickInt true true 64 f v
    | .minU64 => pickInt false false 64 f v
    | .maxU64 => pickInt true false 64 f v)

/-- The value of an element at close (R193). -/
def RedClass.closed (c : RedClass) (field : BitVec 320) : Nat :=
  let f := field.toNat
  match c with
  | .addF =>
    let fl := f / 2 ^ 317
    if fl ≥ 4 || fl % 4 = 3 then fp32.canon
    else if fl = 1 then fp32.infCode false
    else if fl = 2 then fp32.infCode true
    else
      let v := signed 317 f
      if v = 0 then 0 else (fp32.roundNonzero .rn false ⟨decide (v < 0), v.natAbs, -149, false⟩).code
  | .minF | .maxF => if f ≥ 2 ^ 32 then fp32.canon else f
  | _ => f % 2 ^ (8 * c.width)

/-- The shadows of a line that opens from its value (R288). -/
def openFields (c : RedClass) (line : Nat) : List (BitVec 320) :=
  (List.range c.count).map (fun i => c.opened (bytesAt line (c.width * i) c.width))

/-- The shadows after one contribution (R289). -/
def addFields (c : RedClass) (fields : List (BitVec 320)) (elems : List (Nat × DWord)) : List (BitVec 320) :=
  elems.foldl (fun fs e => match fs[e.1]? with
    | some f => fs.set e.1 (c.add f (e.2.toNat % 2 ^ (8 * c.width)))
    | none => fs) fields

/-- The 128 bytes of the closed line (R292 step 1). -/
def closeFields (c : RedClass) (fields : List (BitVec 320)) : Nat :=
  fields.reverse.foldl (fun acc f => acc * 2 ^ (8 * c.width) + c.closed f) 0

/-! ## Spill records (R301) -/

/-- CRC-32 of IEEE 802.3, one bit at a time: reflected polynomial 0xEDB88320. -/
def crc32Byte (crc : Nat) (b : Byte) : Nat :=
  (List.range 8).foldl (fun c _ => if c % 2 = 1 then (c / 2) ^^^ 0xEDB88320 else c / 2) (crc ^^^ b.toNat)

def crc32 (bs : List Byte) : Nat := (bs.foldl crc32Byte 0xFFFFFFFF) ^^^ 0xFFFFFFFF

/-- The slot image: 40 bytes an element, zeros after the last. -/
def slotImage (fields : List (BitVec 320)) : List Byte :=
  let bs := (fields.map (fun f => toBytes f.toNat 40)).flatten
  bs ++ List.replicate (1280 - bs.length) 0

/-- The first 60 bytes of a record; `line` and `fence` are the addresses the form gives. -/
def spillHead (form : Nat) (x : Shadow) (line fence : Nat) : List Byte :=
  toBytes 0x50535A53 4 ++ toBytes form 1 ++ toBytes x.desc.cls.code 1
    ++ toBytes ((if x.desc.fenceEn then 1 else 0) + (if x.line.host then 2 else 0)) 1 ++ toBytes 0 1
    ++ toBytes line 8 ++ toBytes (if x.desc.fenceEn then fence else 0) 8
    ++ toBytes x.desc.count 4 ++ toBytes x.received 4 ++ toBytes x.inst 2 ++ toBytes 0 26

/-- The 2,048 bytes of a record. -/
def spillBytes (form : Nat) (x : Shadow) (line fence : Nat) : List Byte :=
  let h := spillHead form x line fence
  let s := slotImage x.fields
  h ++ toBytes (crc32 (h ++ s)) 4 ++ s ++ List.replicate 704 0

/-- A record read back; none when its CRC or its class fails. [DEDUCED, log 20] -/
def spillParse (bs : List Byte) : Option (Nat × Shadow) :=
  let h := bs.take 60
  let s := (bs.drop 64).take 1280
  let num := fun (k n : Nat) => ofBytes ((bs.drop k).take n)
  match RedClass.ofCode (num 5 1) with
  | none => none
  | some c =>
    if num 0 4 = 0x50535A53 ∧ num 60 4 = crc32 (h ++ s) then
      some (num 4 1,
        { line := ⟨(num 6 1) / 2 % 2 == 1, num 8 8 / 128⟩
          desc := { cls := c, count := num 24 4, fenceEn := num 6 1 % 2 == 1, fence := num 16 8 }
          received := num 28 4, inst := num 32 2
          fields := (List.range c.count).map (fun i => BitVec.ofNat 320 (ofBytes ((s.drop (40 * i)).take 40))) })
    else none

end Sys2Proof.Machine
end

