-- ==== Sys2Proof/Machine/Cache.lean ====
section
/-! DEFINITION. Slices: ways, near slices, home and proxy slices, the sump (08, 09). A request at a home waits in the
slice's queue until its line is ready for it; what it needs first (steps 2-4 of R265, a channel read, ownership of a
host line) is a transaction on the line. -/

namespace Sys2Proof.Machine

open Sys2Proof

/-! ## Ways -/

/-- Home ways and replica ways of a slice of partition p (R249). -/
def Dev.replicaWays (d : Dev) (p : Nat) : Nat := match d.pconf p with | some c => c.replicaWays | none => 0
def Dev.homeWays (d : Dev) (p : Nat) : Nat := 16 - d.replicaWays p

/-- The home way that holds a line. -/
def Slice.findWay (x : Slice) (set n : Nat) (l : Line) : Option (Nat × Way) :=
  (List.range n).findSome? (fun k => match sfind x.ways (set * 16 + k) with
    | some w => if w.line = l then some (set * 16 + k, w) else none
    | none => none)

def Slice.setWay (x : Slice) (k : Nat) (w : Way) : Slice := { x with ways := sput x.ways k w }
def Slice.delWay (x : Slice) (k : Nat) : Slice := { x with ways := sdel x.ways k }

/-- The transaction in progress on a line (busy, R255). -/
def Slice.awaitOf (x : Slice) (l : Line) : Option Await := x.awaits.find? (fun a => a.line == l)
def Slice.setAwait (x : Slice) (a : Await) : Slice :=
  { x with awaits := x.awaits.filter (fun b => b.line != a.line) ++ [a] }
def Slice.delAwait (x : Slice) (l : Line) : Slice := { x with awaits := x.awaits.filter (fun b => b.line != l) }

def Slice.slotOf (x : Slice) (l : Line) : Option Shadow := x.slots.find? (fun y => y.line == l)
def Slice.spillOf (x : Slice) (l : Line) : Option SpillEntry := x.spilled.find? (fun y => y.line == l)
def Slice.delSlot (x : Slice) (l : Line) : Slice := { x with slots := x.slots.filter (fun y => y.line != l) }

/-- Whether the line is open, in a slot or spilled (R297). -/
def Slice.isOpen (x : Slice) (l : Line) : Bool := (x.slotOf l).isSome || (x.spillOf l).isSome

/-- The lowest free entry of the miss table of 256 (R248, R262). -/
def Slice.freeEntry (x : Slice) : Option Nat :=
  (List.range 256).find? (fun n => !(x.awaits.any (fun a => a.mte == n)) && !(x.miss.any (fun m => m.slot == n)))

/-- What R251 finds for a line that needs a way. -/
inductive Choice where
  | free (key : Nat)
  | victim (key : Nat) (w : Way)
  | wait
  deriving DecidableEq, Repr

/-- Order of victims: EVICT_FIRST before others, EVICT_LAST after them, open reduction lines last. -/
def Way.rank (w : Way) : Nat := if w.redOpen then 3 else if w.evLast then 2 else if w.evFirst then 0 else 1

/-- The way that receives a new line (R251). -/
def Slice.choose (x : Slice) (set n : Nat) : Choice :=
  match (List.range n).find? (fun k => (sfind x.ways (set * 16 + k)).isNone) with
  | some k => .free (set * 16 + k)
  | none =>
    let cand := (List.range n).filterMap (fun k => match sfind x.ways (set * 16 + k) with
      | some w => if w.pinned || (x.awaitOf w.line).isSome then none else some (set * 16 + k, w)
      | none => none)
    let better := fun (a b : Nat × Way) =>
      decide (a.2.rank < b.2.rank) || (a.2.rank == b.2.rank && decide (a.2.used < b.2.used))
    match cand with
    | [] => .wait
    | c :: cs => let v := cs.foldl (fun b c => if better c b then c else b) c; .victim v.1 v.2

/-- The access of a way: replacement state and hint bits (R251, R255). -/
def Slice.touch (x : Slice) (k hint : Nat) : Slice :=
  match sfind x.ways k with
  | none => x
  | some w => { x.setWay k { w with used := x.clock, evFirst := hint == 1, evLast := hint == 3 } with clock := x.clock + 1 }

/-- The 64-bit directory entry of a way (R255), for a line with the given tag and transaction. -/
def Way.entry (w : Way) (tag : Nat) (a : Option Await) : Nat :=
  let b := fun (x : Bool) (n : Nat) => if x then 2 ^ n else 0
  (if w.line.host then 0 else tag) + b w.evLast 15 + w.valid.toNat * 2 ^ 16 + w.dirty.toNat * 2 ^ 20
    + w.sharers.toNat * 2 ^ 24
    + (if w.line.host then (match w.mesi with | .i => 0 | .s => 1 | .e => 2 | .m => 3) * 2 ^ 32
       else b w.hostS 32 + b w.hostE 33)
    + b w.redOpen 34 + b w.pinned 35 + b a.isSome 36 + b w.evFirst 37 + b w.line.host 38
    + (match a with | some t => t.mte * 2 ^ 40 | none => 0)

/-! ## The host -/

/-- Whether the CXL.cache agent of partition p issues requests (R406). -/
def Dev.agentOn (d : Dev) (p : Nat) : Bool :=
  (sget {} d.host.cfg 0).cacheEnable && d.host.cacheIdWritten && d.start.state == .ready && (d.pconf p).isSome

/-! ## Carve-outs (02 R77) -/

/-- Whether an address lies in an area. -/
def areaHas (a : Area) (pa : Nat) : Bool := decide (a.base ≤ pa) && decide (pa < a.base + a.size)

/-- The spill area of any partition. -/
def Dev.inSpill (d : Dev) (pa : Nat) : Bool :=
  d.conf.parts.any (fun c => match c with | some x => areaHas x.spill pa | none => false)

/-- The event log and the ledger window, which no slice caches (R503). -/
def Dev.inLog (d : Dev) (pa : Nat) : Bool := areaHas d.conf.eventLog pa || areaHas d.conf.ledger pa

/-- The instance whose memory holds an address; 0xFFFF for physical function 0 (R301). -/
def Dev.instOfPa (d : Dev) (pa : Nat) : Nat :=
  match d.conf.slots.find? (fun s => decide (s.base ≤ pa) && decide (pa < s.base + s.sizeGib * 2 ^ 30)) with
  | some s => s.inst
  | none => 0xFFFF

/-! ## Spill and reload (R296-R301) -/

/-- Base address and number of records of a slice's spill region (R296). -/
def Dev.spillRegion (d : Dev) (p s : Nat) : Nat × Nat :=
  match d.pconf p with
  | none => (0, 0)
  | some c =>
    let share := c.spill.size / (32 * c.lodes)
    (c.spill.base + (s - 32 * c.first) * share, min 2048 (share / 2048))

/-- The address form 0 gives a line. -/
def Line.addr (l : Line) : Nat := l.n * 128

/-- Writes the bytes of a record. -/
def Dev.writeRecord (d : Dev) (addr : Nat) (bs : List Byte) : Dev :=
  { d with mem := Mem.writeNat d.mem addr 2048 (ofBytes bs) }

/-- A shadow goes to the lowest free record of a slice, with its index entry. None when no record is free (R297, R300). -/
def Dev.placeRecord (d : Dev) (p s : Nat) (y : Shadow) : Option Dev :=
  let x := d.slice s
  let (base, n) := d.spillRegion p s
  match (List.range n).find? (fun r => !(x.spilled.any (fun e => e.record == r))) with
  | none => none
  | some r =>
    some ((d.setSlice s { x.delSlot y.line with spilled := x.spilled ++ [{ line := y.line, record := r }] }).writeRecord
      (base + 2048 * r) (spillBytes 0 y y.line.addr y.desc.fence))

/-- A spill of a shadow, counted (R297). -/
def Dev.spillShadow (d : Dev) (p s : Nat) (y : Shadow) : Option Dev :=
  (d.placeRecord p s y).map (fun e => e.setPart p { e.part p with spills := (e.part p).spills + 1 })

/-- Makes a slot free, spilling the one whose last contribution is oldest (R298). -/
def Dev.freeSlot (d : Dev) (p s : Nat) : Option Dev :=
  let x := d.slice s
  if x.slots.length < 512 then some d
  else match x.slots with
    | [] => some d
    | y :: ys => d.spillShadow p s (ys.foldl (fun b z => if z.last < b.last then z else b) y)

/-- What a reload gives: nothing to free a slot with, a record that fails its check, or the shadow in its slot. -/
inductive Reload where
  | wait
  | failed
  | done (d : Dev)
  deriving DecidableEq, Repr

/-- The reload of a spilled line (R299). -/
def Dev.reload (d : Dev) (p s : Nat) (e : SpillEntry) : Reload :=
  match d.freeSlot p s with
  | none => .wait
  | some d1 =>
    let (base, _) := d1.spillRegion p s
    match spillParse (toBytes (Mem.readNat d1.mem (base + 2048 * e.record) 2048) 2048) with
    | none => .failed
    | some (_, y) =>
      let x := d1.slice s
      .done (d1.setSlice s { x with spilled := x.spilled.filter (fun z => z.line != e.line)
                                    slots := x.slots ++ [{ y with line := e.line, last := x.clock }]
                                    clock := x.clock + 1 })

/-! ## Eviction (R250, R268, R298, R302) -/

/-- A line leaves its way: dirty sectors go to the channel, a host line is given up. [DEDUCED, log 18] -/
def Dev.writeBack (d : Dev) (p : Nat) (w : Way) : Dev :=
  if w.line.host then
    match w.mesi with
    | .m => { d with toHost := d.toHost ++ [.dirtyEvict p w.line.addr w.data] }
    | .s | .e => { d with toHost := d.toHost ++ [.cleanEvict p w.line.addr] }
    | .i => d
  else
    let d1 := d.memWriteLine w.line.n (sectorMask w.dirty) w.data
    match d.homeOfLine w.line.n with
    | some (_, h) => d1.bursts h.channel (sectorCount w.dirty) none
    | none => d1

/-- Sends INV to the stacks of a mask for a line homed in slice s: to the slice of the same local number (R258). -/
def Dev.sendInv (d : Dev) (s : Nat) (l : Line) (sharers : BitVec 8) : Dev :=
  (List.range 8).foldl (fun (e : Dev) t =>
    if sharers.getLsbD t then e.send { src := .slice s, dst := .slice (16 * t + s % 16), rid := 0, body := .inv l } else e) d

/-- Steps 3-4 of R265 and R268: INV to every sharer, BISnpInv to the host; none when the miss table is full. -/
def Dev.startInv (d : Dev) (s : Nat) (w : Way) (victim : Bool) : Option Dev :=
  let x := d.slice s
  match x.freeEntry with
  | none => none
  | some m =>
    let snoop := w.hostS || w.hostE
    let a : Await := { line := w.line, mte := m, inv := w.sharers, victim := victim,
                       bi := if snoop then some .inv else none, invAt := d.coh, biAt := d.coh }
    let d1 := d.setSlice s (x.setAwait a)
    let d2 := d1.sendInv s w.line w.sharers
    some (if snoop then { d2 with toHost := d2.toHost ++ [.biSnpInv (d.hpaOf w.line.n)] } else d2)

/-- One step of the eviction of a victim: a spill, the removal of copies, or the way freed. None when it waits. -/
def Dev.evictWay (d : Dev) (p s key : Nat) (w : Way) : Option Dev :=
  let x := d.slice s
  if w.redOpen then
    match x.slotOf w.line with
    | some y => d.spillShadow p s y
    | none =>
      let d1 := d.setSlice s (x.delWay key)
      some (if w.line.host then d1.writeBack p w else d1)
  else if w.sharers ≠ 0 || w.hostS || w.hostE then d.startInv s w true
  else some ((d.setSlice s (x.delWay key)).writeBack p w)

/-! ## Requests at the home -/

/-- What a request needs of its line before it is performed: valid sectors, no other copy, and for a host line
whether its data is needed. -/
structure Needs where
  sectors : BitVec 4
  excl    : Bool
  data    : Bool := true
  /-- Read the addressed sectors only (STREAM, R250). -/
  only    : Bool := false
  /-- The host's exclusive copy is asked for first; a host MemRd with MetaValue I leaves it alone (R272). -/
  snoop   : Bool := true
  deriving DecidableEq, Repr

/-- Progress of a request: it stays as it is; something it needs has been started or done; or its way is ready. -/
inductive Prep where
  | blocked
  | again (d : Dev)
  | ready (key : Nat) (w : Way)
  deriving DecidableEq, Repr

/-- Steps 2-4 of R265, the reads of R267 and R250, and the ownership of R274. [DEDUCED, log 18] -/
def Dev.prepare (d : Dev) (p s set : Nat) (l : Line) (nd : Needs) : Prep :=
  let x := d.slice s
  if (x.awaitOf l).isSome then .blocked
  else match x.findWay set (d.homeWays p) l with
    | none =>
      match x.choose set (d.homeWays p) with
      | .free k => .again (d.setSlice s { x.setWay k { line := l, used := x.clock } with clock := x.clock + 1 })
      | .victim k w => match d.evictWay p s k w with
        | none => .blocked
        | some d1 => .again d1
      | .wait => .blocked
    | some (k, w) =>
      if l.host then
        let own := (w.mesi == .e || w.mesi == .m) && (!nd.data || w.valid == 15)
        if own || (w.mesi == .s && !nd.excl) then .ready k w
        else if !d.agentOn p then .blocked
        else match x.freeEntry with
          | none => .blocked
          | some m =>
            let kind := if !nd.excl then D2hKind.rdShared else if nd.data then .rdOwn else .rdOwnNoData
            let d1 := d.setSlice s (x.setAwait { line := l, mte := m, d2h := some kind, d2hAt := d.coh })
            .again { d1 with toHost := d1.toHost ++ [.d2h p l.addr kind] }
      else if nd.excl && (w.sharers ≠ 0 || w.hostS || w.hostE) then
        match d.startInv s w false with
        | none => .blocked
        | some d1 => .again d1
      else match x.freeEntry with
        | none => if (w.hostE && nd.snoop) || nd.sectors &&& ~~~w.valid ≠ 0 then .blocked else .ready k w
        | some m =>
          if w.hostE && nd.snoop then
            let d1 := d.setSlice s (x.setAwait { line := l, mte := m, bi := some .data, biAt := d.coh })
            .again { d1 with toHost := d1.toHost ++ [.biSnpData (d.hpaOf l.n)] }
          else if nd.sectors &&& ~~~w.valid ≠ 0 then
            let want := if nd.only then nd.sectors &&& ~~~w.valid else ~~~w.valid
            .again (d.setSlice s (x.setAwait { line := l, mte := m, channel := want, chAt := d.coh }))
          else .ready k w

/-- Progress of a request of the queue. -/
inductive Tried where
  | blocked
  | again (d : Dev)
  | done (d : Dev)
  deriving DecidableEq, Repr

/-- Sends the answer of a home or proxy slice. An injection armed for the slice's answers drops it (17 R493). [DEDUCED, log 45] -/
def Dev.answer (d : Dev) (s : Nat) (r : HomeReq) (b : MsgBody) : Dev :=
  if d.inj.aim = some (9, s) then d.fireInjection
  else d.send { src := .slice s, dst := r.src, rid := r.rid, acct := r.acct, body := b }

/-- The stack of a slice as a unit. -/
def stackOfUnit : UnitId → Nat
  | .slice n => n / 16
  | .core die _ => die
  | _ => 8

/-- A 64 B half of a line (CXL.mem accesses). -/
def halfOf (data : LineData) (h : Nat) : BitVec 512 := BitVec.ofNat 512 (bytesAt data.toNat (64 * h) 64)

/-- The answer to a host read: its data, or a bare completion for MemInv (R272). -/
def hostReply (hpa : Nat) (data : LineData) (half : Nat) (withData : Bool) : HostMsg :=
  if withData then .memData hpa (halfOf data half) false else .cmp hpa

/-- The answer to a read from a way (R263, R267). -/
def Dev.answerRead (d : Dev) (s key : Nat) (w : Way) (r : HomeReq) : Dev :=
  match r.kind with
  | .rdS _ hint =>
    let t := stackOfUnit r.src
    let d1 := d.setSlice s (((d.slice s).setWay key { w with sharers := w.sharers ||| (1#8 <<< t) }).touch key hint)
    d1.answer s r (.fill w.line w.valid w.data true)
  | .rdO _ hint =>
    let d1 := d.setSlice s ((d.slice s).touch key hint)
    d1.answer s r (.fill w.line w.valid w.data false)
  | .near q _ hint =>
    let d1 := d.setSlice s ((d.slice s).touch key hint)
    d1.deliver q w.line w.valid w.data
  | .hostRd mv half withData =>
    let w1 := match mv with
      | .i => w
      | .s => { w with hostS := true, hostE := false }
      | .a => { w with hostS := false, hostE := true }
    let d1 := d.setSlice s (((d.slice s).setWay key w1).touch key 0)
    { d1 with toHost := d1.toHost ++ [hostReply (d.hpaOf w.line.n + 64 * half) w.data half withData] }
  | _ => d

/-- Whether a request is a read that joins a channel read (R262, R267). -/
def HomeKind.joins : HomeKind → Bool
  | .rdS .. | .rdO .. | .near .. | .hostRd .i _ _ | .hostRd .s _ _ => true
  | _ => false

/-- Sectors and hint of a read. -/
def HomeKind.readSectors : HomeKind → BitVec 4 × Nat
  | .rdS s h | .rdO s h | .near _ s h => (s, h)
  | .hostRd _ half _ => (if half = 0 then 3#4 else 12#4, 0)
  | _ => (0, 0)

/-- A read of a line that no slice caches, from the controller (R503). -/
def Dev.answerDirect (d : Dev) (s : Nat) (r : HomeReq) : Dev :=
  let data := d.memLine r.line.n
  let d1 := match d.homeOfLine r.line.n with
    | some (_, h) => d.bursts h.channel 4 r.acct
    | none => d
  match r.kind with
  | .near q _ _ => d1.deliver q r.line 15#4 data
  | .hostRd _ half withData => { d1 with toHost := d1.toHost ++ [hostReply (d.hpaOf r.line.n + 64 * half) data half withData] }
  | _ => d1.answer s r (.fill r.line 15#4 data false)

/-- The write of step 5 of R265 into a way. -/
def Way.store (w : Way) (mask : BitVec 128) (data : LineData) : Way :=
  { w with data := mergeLine mask w.data data, valid := w.valid ||| sectorsOf mask, dirty := w.dirty ||| sectorsOf mask
           sharers := 0, hostS := false, hostE := false, mesi := if w.line.host then .m else w.mesi }

/-- The result of a close in the line's way (R292 steps 1-3): every element written, the line no longer open. -/
def Way.closeWith (w : Way) (y : Shadow) : Way :=
  { w with data := BitVec.ofNat 1024 (closeFields y.desc.cls y.fields), valid := 15, dirty := 15, redOpen := false
           mesi := if w.line.host then .m else w.mesi }

/-- Step 5 of R292: the atomic that increments the fence word, sent to its home. [DEDUCED, log 20] -/
def Dev.closeFence (d : Dev) (p s : Nat) (y : Shadow) (acct : Option Nat) : Dev :=
  if y.desc.fenceEn then
    let l : Line := ⟨false, y.desc.fence / 128⟩
    match d.place p l with
    | none => d
    | some (h, _) =>
      let (id, d1) := d.takeId
      let x := d1.slice s
      (d1.setSlice s { x with fences := x.fences ++ [(id, l, d.coh, false)] }).send
        { src := .slice s, dst := .slice h, rid := id, acct := acct,
          body := .atm l .add 2 false true [{ lane := 0, off := y.desc.fence % 128, b := 1, c := 0 }] }
  else d

/-- The close of a line whose shadow is in a slot (R292). -/
def Dev.closeLine (d : Dev) (p s key : Nat) (w : Way) (y : Shadow) (acct : Option Nat) : Dev :=
  (d.setSlice s (((d.slice s).setWay key (w.closeWith y)).delSlot y.line)).closeFence p s y acct

/-- One contribution enters the shadow of an open line and is counted (R289). [DEDUCED, log 20] -/
def Dev.contribute (d : Dev) (p s : Nat) (r : HomeReq) (y : Shadow) (desc : RedDesc) (elems : List (Nat × DWord)) : Shadow × Dev :=
  let x := d.slice s
  let y1 := { y with fields := addFields y.desc.cls y.fields elems, received := y.received + 1, last := x.clock }
  let d1 := d.setSlice s { x.delSlot y.line with slots := (x.delSlot y.line).slots ++ [y1], clock := x.clock + 1 }
  let d2 := (d1.meter (domBase (s / 16)) r.acct 1).answer s r (.ack r.line)
  (y1, if desc = y.desc then d2 else d2.jobFault p causeReduction (s / 16))

/-- Ends the partition on a spill record that fails its check (R299, R494). -/
def Dev.spillFailed (d : Dev) (p s : Nat) : Dev :=
  d.detectedIn p 0x91 { time := d.time, kind := 1, detector := 4, unit := s, location := s / 16 }

/-- A REDC at the home (R288-R293). [DEDUCED, log 20] -/
def Dev.tryRedc (d : Dev) (p s set : Nat) (r : HomeReq) (desc : RedDesc) (elems : List (Nat × DWord)) (close : Bool) : Tried :=
  let x := d.slice s
  let full : Needs := { sectors := 15, excl := true }
  match x.slotOf r.line, x.spillOf r.line with
  | some y, _ =>
    let closes := close || (y.desc.count != 0 && y.received + 1 == y.desc.count)
    if closes then
      match x.findWay set (d.homeWays p) r.line with
      | none => match d.prepare p s set r.line { full with sectors := 0 } with
        | .again d1 =>
          -- a way that has just been allocated for an open line is marked open (R298)
          let x1 := d1.slice s
          match x1.findWay set (d1.homeWays p) r.line with
          | some (k, w) => .again (d1.setSlice s (x1.setWay k { w with redOpen := true }))
          | none => .again d1
        | _ => .blocked
      | some (k, w) =>
        if r.line.host && !((w.mesi == .e || w.mesi == .m) && w.valid == 15) then
          match d.prepare p s set r.line full with
          | .again d1 => .again d1
          | _ => .blocked
        else if close then .done ((d.closeLine p s k w y r.acct).answer s r (.ack r.line))
        else
          let (y1, d1) := d.contribute p s r y desc elems
          if d1.partRuns p then .done (d1.closeLine p s k w y1 r.acct) else .done d1
    else .done (d.contribute p s r y desc elems).2
  | none, some e =>
    match d.reload p s e with
    | .wait => .blocked
    | .failed => .done (d.spillFailed p s)
    | .done d1 => .again d1
  | none, none =>
    if close then .done (d.answer s r (.ack r.line))
    else match d.prepare p s set r.line full with
      | .blocked => .blocked
      | .again d1 => .again d1
      | .ready k w =>
        match d.freeSlot p s with
        | none => .blocked
        | some d1 =>
          let x1 := d1.slice s
          let y : Shadow := { line := r.line, desc := desc, received := 0, fields := openFields desc.cls w.data.toNat
                              inst := if r.line.host then 0xFFFF else d.instOfPa r.line.addr, last := x1.clock }
          .again (d1.setSlice s { x1.setWay k { w with redOpen := true, used := x1.clock } with
                    slots := x1.slots ++ [y], clock := x1.clock + 1 })

/-- A host snoop at the proxy slice, its line at rest (R274): SnpData leaves a shared copy, SnpInv none, SnpCur
what there is; modified data goes with the answer. -/
def Dev.answerSnoop (d : Dev) (p s set : Nat) (l : Line) (k : SnpKind) : Dev :=
  let x := d.slice s
  match x.findWay set (d.homeWays p) l with
  | none => { d with toHost := d.toHost ++ [.snpRsp p l.addr .i none] }
  | some (key, w) =>
    let data := if w.mesi = .m then some w.data else none
    match k with
    | .data =>
      let st := if w.mesi = .i then Mesi.i else .s
      { d.setSlice s (x.setWay key { w with mesi := st }) with toHost := d.toHost ++ [.snpRsp p l.addr st data] }
    | .inv => { d.setSlice s (x.delWay key) with toHost := d.toHost ++ [.snpRsp p l.addr .i data] }
    | .cur => { d with toHost := d.toHost ++ [.snpRsp p l.addr w.mesi data] }

/-- One attempt to perform a request of the queue of slice s (R265-R268). [DEDUCED, log 18] -/
def Dev.tryReq (d : Dev) (p s set : Nat) (r : HomeReq) : Tried :=
  let x := d.slice s
  match r.kind with
  | .redc desc elems close => d.tryRedc p s set r desc elems close
  | .snoop k => if (x.awaitOf r.line).isSome || x.isOpen r.line then .blocked else .done (d.answerSnoop p s set r.line k)
  | .hostWr mask data mv =>
    if (match x.awaitOf r.line with | some a => a.bi.isSome | none => false) then
      -- applied at once while a back-invalidate is outstanding (R270)
      let d1 := match x.findWay set (d.homeWays p) r.line with
        | some (k, w) =>
          let secs := w.valid ||| sectorsCovered mask
          (d.setSlice s (x.setWay k { w with data := mergeLine mask w.data data, valid := secs,
                                             dirty := w.dirty ||| (sectorsOf mask &&& secs) })).memWriteLine
            r.line.n (mask &&& ~~~(sectorMask secs)) data
        | none => d.memWriteLine r.line.n mask data
      .done { d1 with toHost := d1.toHost ++ [.cmp (d.hpaOf r.line.n)] }
    else if x.isOpen r.line then .blocked
    else match d.prepare p s set r.line { sectors := sectorsOf mask &&& ~~~sectorsCovered mask, excl := true, only := true } with
      | .blocked => .blocked
      | .again d1 => .again d1
      | .ready k w =>
        let w1 := { w.store mask data with hostS := mv == .s, hostE := mv == .a }
        let d1 := d.setSlice s ((x.setWay k w1).touch k 0)
        .done { d1 with toHost := d1.toHost ++ [.cmp (d.hpaOf r.line.n)] }
  | .wr mask data hint =>
    if x.isOpen r.line then .blocked
    else if !r.line.host && d.inLog r.line.addr then .done ((d.memWriteLine r.line.n mask data).answer s r (.ack r.line))
    else match d.prepare p s set r.line { sectors := sectorsOf mask &&& ~~~sectorsCovered mask, excl := true, only := true,
                                          data := mask != BitVec.allOnes 128 } with
      | .blocked => .blocked
      | .again d1 => .again d1
      | .ready k w => .done ((d.setSlice s ((x.setWay k (w.store mask data)).touch k hint)).answer s r (.ack r.line))
  | .atm op t stream noret ls =>
    if x.isOpen r.line then .blocked
    else
      let m := atomMask t ls
      let direct := !r.line.host && (d.inLog r.line.addr ||
        (stream && (x.findWay set (d.homeWays p) r.line).isNone && (x.awaitOf r.line).isNone))
      if direct then
        let (v, olds) := atomLanes op t ls (d.memLine r.line.n).toNat
        let d1 := d.memWriteLine r.line.n m (BitVec.ofNat 1024 v)
        let d2 := match d.homeOfLine r.line.n with
          | some (_, h) => d1.bursts h.channel (2 * sectorCount (sectorsOf m)) r.acct
          | none => d1
        .done (d2.answer s r (.atmRsp r.line (if noret then [] else olds)))
      else match d.prepare p s set r.line { sectors := sectorsOf m, excl := true } with
        | .blocked => .blocked
        | .again d1 => .again d1
        | .ready k w =>
          let (v, olds) := atomLanes op t ls w.data.toNat
          .done ((d.setSlice s ((x.setWay k (w.store m (BitVec.ofNat 1024 v))).touch k 0)).answer s r
            (.atmRsp r.line (if noret then [] else olds)))
  | k =>
    if x.isOpen r.line then .blocked
    else if !r.line.host && d.inLog r.line.addr then .done (d.answerDirect s r)
    else
      let (secs, hint) := k.readSectors
      let excl := match k with | .hostRd .a _ _ => true | _ => false
      let snoop := match k with | .hostRd .i _ _ => false | _ => true
      match d.prepare p s set r.line { sectors := secs, excl := excl, only := hint == 2, snoop := snoop } with
      | .blocked => .blocked
      | .again d1 => .again d1
      | .ready key w => .done (d.answerRead s key w r)

/-- Whether a request may be tried: none of its line waits before it, but for contributions to an open line (R294) and
host writes while a back-invalidate is outstanding. [DEDUCED, log 20] -/
def Slice.turn (x : Slice) (before : List HomeReq) (r : HomeReq) : Bool :=
  let red := fun (k : HomeKind) => match k with | .redc .. => true | _ => false
  let mine := before.filter (fun b => b.line == r.line)
  mine.isEmpty
    || (red r.kind && x.isOpen r.line && mine.all (fun b => !red b.kind))
    || (match r.kind, x.awaitOf r.line with
        | .hostWr .., some a => a.bi.isSome
        | _, _ => false)

/-- The first request of the queue that makes progress. -/
def Dev.serveFirst (d : Dev) (p s : Nat) : List HomeReq → List HomeReq → Option Dev
  | _, [] => none
  | before, r :: rest =>
    let x := d.slice s
    let next := Dev.serveFirst d p s (before ++ [r]) rest
    match d.place p r.line with
    | none => next
    | some (_, set) =>
      if x.turn before r then
        match d.tryReq p s set r with
        | .blocked => next
        | .again d1 =>
          let x1 := d1.slice s
          let reading := match x1.awaitOf r.line with | some a => a.channel != 0 | none => false
          some (if reading && r.kind.joins then
            d1.setSlice s { x1 with waitq := x1.waitq.map (fun q => if q = r then { r with joined := true } else q) } else d1)
        | .done d1 => let x1 := d1.slice s; some (d1.setSlice s { x1 with waitq := x1.waitq.erase r })
      else next

/-- Serves the queue of a slice until nothing more can be done. -/
def Dev.serveFor (d : Dev) (p s : Nat) : Nat → Dev
  | 0 => d
  | fuel + 1 => match d.serveFirst p s [] (d.slice s).waitq with
    | none => d
    | some d1 => Dev.serveFor d1 p s fuel

/-- Serving with room for the steps of every waiting request. -/
def Dev.serve (d : Dev) (p s : Nat) : Dev := d.serveFor p s (40 * ((d.slice s).waitq.length + 1))

/-- A request arrives at its home or proxy slice: it joins a channel read, or waits its turn (R262, R267). -/
def Dev.arrive (d : Dev) (p s : Nat) (r : HomeReq) : Dev :=
  let x := d.slice s
  match x.awaitOf r.line with
  | some a =>
    if a.channel ≠ 0 && r.kind.joins then
      let valid := match d.place p r.line with
        | some (_, set) => match x.findWay set (d.homeWays p) r.line with
          | some (_, w) => w.valid
          | none => 0
        | none => 0
      let want := r.kind.readSectors.1 &&& ~~~valid
      d.setSlice s { x.setAwait { a with channel := a.channel ||| want } with waitq := x.waitq ++ [{ r with joined := true }] }
    else (d.setSlice s { x with waitq := x.waitq ++ [r] }).serve p s
  | none => (d.setSlice s { x with waitq := x.waitq ++ [r] }).serve p s

/-- A request message arrives: it is metered (19 R539) and taken up. -/
def Dev.arriveMsg (d : Dev) (p s : Nat) (m : Msg) (l : Line) (k : HomeKind) : Dev :=
  (d.meter (domBase (s / 16)) m.acct 1).arrive p s
    { rid := m.rid, src := m.src, acct := m.acct, line := l, kind := k, arrived := d.coh }

/-- The reads that have joined a channel read, once its data is there (R263). -/
def Dev.answerJoined (d : Dev) (p s : Nat) (l : Line) : Dev :=
  let js := (d.slice s).waitq.filter (fun r => r.joined && r.line == l)
  js.foldl (fun (e : Dev) r =>
    match e.place p l with
    | none => e
    | some (_, set) =>
      match (e.slice s).findWay set (e.homeWays p) l with
      | none => e
      | some (k, w) =>
        let e1 := e.answerRead s k w r
        let x := e1.slice s
        e1.setSlice s { x with waitq := x.waitq.erase r }) d

/-- An answer has come: when the transaction on the line waits for nothing more it ends, a victim's way is freed, and
the queue is served. -/
def Dev.settleAwait (d : Dev) (p s : Nat) (a : Await) : Dev :=
  let x := d.slice s
  if a.inv = 0 && a.bi.isNone && a.channel = 0 && a.d2h.isNone then
    let d1 := d.setSlice s (x.delAwait a.line)
    let d2 := match d1.place p a.line with
      | none => d1
      | some (_, set) =>
        match x.findWay set (d.homeWays p) a.line with
        | none => d1
        | some (k, w) =>
          if a.victim then (d1.setSlice s ((d1.slice s).delWay k)).writeBack p w else d1
    (d2.answerJoined p s a.line).serve p s
  else d.setSlice s (x.setAwait a)

/-! ## The near slice (R261, R262, R264) -/

/-- The home slice of a line. -/
def Dev.homeSlice (d : Dev) (p : Nat) (l : Line) : Option Nat := (d.place p l).map (fun x => x.1)

/-- The replica of a line in a near slice: its key and entry. -/
def Slice.findReplica (x : Slice) (set : Nat) (l : Line) : Option (Nat × Replica) :=
  (List.range 16).findSome? (fun k => match sfind x.replicas (set * 16 + k) with
    | some w => if w.line = l then some (set * 16 + k, w) else none
    | none => none)

/-- One read at a near slice: a replica, an open entry, a new entry; none when it waits at the input. -/
def Dev.nearTry (d : Dev) (p n : Nat) (r : NearReq) : Option Dev :=
  let x := d.slice n
  match d.place p r.line with
  | none => some d
  | some (home, set) =>
    match (match x.findReplica set r.line with
           | some (k, w) => if r.sectors &&& ~~~w.valid = 0 then some (k, w) else none
           | none => none) with
    | some (k, w) =>
      some ((d.setSlice n { x with replicas := sput x.replicas k { w with used := x.clock }, clock := x.clock + 1 }).deliver
        r.req r.line w.valid w.data)
    | none =>
      match x.miss.find? (fun e => e.line == r.line) with
      | some e =>
        if e.invSeen then none
        else some (d.setSlice n { x with miss := x.miss.map (fun y =>
          if y.line = r.line then { y with reqs := y.reqs ++ [(r.req, r.sectors)] } else y) })
      | none =>
        match x.freeEntry with
        | none => none
        | some m =>
          let shared := decide (d.replicaWays p > 0) && r.hint != 2 && !r.line.host
          let e : MissEntry := { line := r.line, slot := m, shared := shared, hint := r.hint,
                                 reqs := [(r.req, r.sectors)], sent := d.coh }
          let d1 := d.setSlice n { x with miss := x.miss ++ [e] }
          some (d1.send { src := .slice n, dst := .slice home, rid := 0, acct := r.acct,
                          body := if shared then .rdS r.line r.sectors r.hint else .rdO r.line r.sectors r.hint })

/-- The reads waiting at a near slice's input, in arrival order. -/
def Dev.nearDrain (d : Dev) (p n : Nat) : Dev :=
  (d.slice n).nearq.foldl (fun (e : Dev) r =>
    match e.nearTry p n r with
    | none => e
    | some e1 => let x := e1.slice n; e1.setSlice n { x with nearq := x.nearq.erase r }) d

/-- A read of a core of die t (R261): at the home slice itself when it is of the core's stack. -/
def Dev.readLine (d : Dev) (p t : Nat) (l : Line) (sectors : BitVec 4) (hint : Nat) (q : Requester)
    (acct : Option Nat) : Dev :=
  match d.homeSlice p l with
  | none => d
  | some home =>
    let n := 16 * t + home % 16
    if home = n then d.arrive p n { rid := 0, src := .slice n, acct := acct, line := l, kind := .near q sectors hint, arrived := d.coh }
    else
      let r : NearReq := { line := l, sectors := sectors, hint := hint, req := q, acct := acct }
      match d.nearTry p n r with
      | some d1 => d1
      | none => let x := d.slice n; d.setSlice n { x with nearq := x.nearq ++ [r] }

/-- The installation of a line in a replica way (R264): a free way, else the least recently used one, whose line is
announced by EVN. -/
def Dev.installReplica (d : Dev) (p n home set : Nat) (l : Line) (valid : BitVec 4) (data : LineData) : Dev :=
  let x := d.slice n
  let keys := (List.range (d.replicaWays p)).map (fun k => set * 16 + (15 - k))
  let new : Replica := { line := l, home := home / 16, valid := valid, data := data, used := x.clock }
  let put := fun (e : Dev) k => let y := e.slice n; e.setSlice n { y with replicas := sput y.replicas k new, clock := y.clock + 1 }
  match x.findReplica set l with
  | some (k, _) => put d k
  | none =>
    match keys.reverse.find? (fun k => (sfind x.replicas k).isNone) with
    | some k => put d k
    | none =>
      match keys.filterMap (fun k => (sfind x.replicas k).map (fun w => (k, w))) with
      | [] => d
      | c :: cs =>
        let v := cs.foldl (fun b c => if c.2.used < b.2.used then c else b) c
        let d1 := match d.homeSlice p v.2.line with
          | some h => d.send { src := .slice n, dst := .slice h, rid := 0, body := .evn v.2.line }
          | none => d
        put d1 v.1

/-- A FILL at a near slice (R264). [DEDUCED, log 18] -/
def Dev.fillArrives (d : Dev) (p n home : Nat) (l : Line) (valid : BitVec 4) (data : LineData) (replica : Bool) : Dev :=
  let x := d.slice n
  match x.miss.find? (fun e => e.line == l), d.place p l with
  | some e, some (_, set) =>
    let d1 := if replica then
        if e.invSeen then d.send { src := .slice n, dst := .slice home, rid := 0, body := .evn l }
        else d.installReplica p n home set l valid data
      else d
    let ok := e.reqs.filter (fun r => r.2 &&& ~~~valid == 0)
    let rest := e.reqs.filter (fun r => !(r.2 &&& ~~~valid == 0))
    let y := d1.slice n
    let miss := y.miss.filter (fun m => m.line != l)
    let d2 := match rest with
      | [] => d1.setSlice n { y with miss := miss }
      | _ :: _ =>
        let secs := rest.foldl (fun (s : BitVec 4) q => s ||| q.2) 0
        (d1.setSlice n { y with miss := miss ++ [{ e with reqs := rest, shared := false, invSeen := false, sent := d.coh }] }).send
          { src := .slice n, dst := .slice home, rid := 0, body := .rdO l secs e.hint }
    let d3 := ok.foldl (fun (e : Dev) q => e.deliver q.1 l valid data) d2
    d3.nearDrain p n
  | _, _ => d

/-- An INV at a near slice (R264, R269). -/
def Dev.invArrives (d : Dev) (p n : Nat) (src : UnitId) (l : Line) : Dev :=
  let x := d.slice n
  let reps := match d.place p l with
    | some (_, set) => match x.findReplica set l with
      | some (k, _) => sdel x.replicas k
      | none => x.replicas
    | none => x.replicas
  let d1 := d.setSlice n { x with replicas := reps, miss := x.miss.map (fun e => if e.line = l then { e with invSeen := true } else e) }
  if d1.inj.aim = some (9, n) then d1.fireInjection else d1.send { src := .slice n, dst := src, rid := 0, body := .invAck l }

/-! ## Accesses of engines, the control plane and bulk copies

They read and write lines at the home slice at once. A line that a transaction holds, that is open, or whose current
bytes the host holds is not there to be read or written; `Dev.claim` starts what brings it. -/

/-- The current bytes of a line, when they can be read now. [DESIGN CHOICE, log 15] -/
def Dev.peekLine (d : Dev) (p : Nat) (l : Line) : Option LineData :=
  match d.place p l with
  | none => none
  | some (s, set) =>
    let x := d.slice s
    if (x.awaitOf l).isSome || x.isOpen l then none
    else match x.findWay set (d.homeWays p) l with
      | some (_, w) =>
        if l.host then (if w.mesi == .i || w.valid != 15 then none else some w.data)
        else if w.hostE then none
        else some (mergeLine (sectorMask w.valid) (d.memLine l.n) w.data)
      | none => if l.host then none else some (d.memLine l.n)

/-- Whether a line can be written now. [DESIGN CHOICE, log 15] -/
def Dev.canWrite (d : Dev) (p : Nat) (l : Line) : Bool :=
  match d.place p l with
  | none => false
  | some (s, set) =>
    let x := d.slice s
    if (x.awaitOf l).isSome || x.isOpen l then false
    else match x.findWay set (d.homeWays p) l with
      | some (_, w) =>
        if l.host then (w.mesi == .e || w.mesi == .m) && w.valid == 15
        else !w.hostS && !w.hostE && (w.sharers == 0 ||
          (!(d.net.any (fun m => match m.body with
              | .fill k .. | .inv k | .evn k | .invAck k => k == l
              | .rdS k .. | .rdO k .. => k == l
              | _ => false))
           && (List.range 8).all (fun t => !((d.slice (16 * t + s % 16)).miss.any (fun e => e.line == l)))))
      | none => !l.host

/-- Writes bytes of a line that can be written; every replica goes with it. [DESIGN CHOICE, log 15] -/
def Dev.pokeLine (d : Dev) (p : Nat) (l : Line) (mask : BitVec 128) (data : LineData) : Dev :=
  match d.place p l with
  | none => d
  | some (s, set) =>
    let x := d.slice s
    match x.findWay set (d.homeWays p) l with
    | some (k, w) =>
      if l.host then d.setSlice s (x.setWay k (w.store mask data))
      else
        let cur := mergeLine (sectorMask w.valid) (d.memLine l.n) w.data
        let d1 := d.setSlice s (x.setWay k { (({ w with data := cur, valid := w.valid ||| sectorsOf mask } : Way).store mask data) with sharers := 0 })
        (List.range 8).foldl (fun (e : Dev) t =>
          if w.sharers.getLsbD t then
            let n := 16 * t + s % 16
            let y := e.slice n
            match y.findReplica set l with
            | some (r, _) => e.setSlice n { y with replicas := sdel y.replicas r }
            | none => e
          else e) d1
    | none => d.memWriteLine l.n mask data

/-- Sector bursts of an engine's access to a line that no way holds (10 R327, 19 R539). [DESIGN CHOICE, log 15] -/
def Dev.engineBursts (d : Dev) (p : Nat) (l : Line) (sectors : BitVec 4) (acct : Option Nat) : Dev :=
  match d.place p l, d.homeOfLine l.n with
  | some (s, set), some (_, h) =>
    if l.host || ((d.slice s).findWay set (d.homeWays p) l).isSome then d
    else d.bursts h.channel (sectorCount sectors) acct
  | _, _ => d

/-- Starts what brings a line that cannot be read, or written, now: a snoop of the host, ownership of a host line, the
removal of copies. [DESIGN CHOICE, log 15] -/
def Dev.claim (d : Dev) (p : Nat) (l : Line) (write : Bool) : Dev :=
  match d.place p l with
  | none => d
  | some (s, set) =>
    if (d.slice s).isOpen l then d
    else
      let x := d.slice s
      if !l.host && (x.findWay set (d.homeWays p) l).isNone then d
      else
        let nd : Needs := { sectors := 0, excl := write }
        match d.prepare p s set l nd with
        | .again d1 => match d1.prepare p s set l nd with
          | .again d2 => match d2.prepare p s set l nd with
            | .again d3 => d3
            | _ => d2
          | _ => d1
        | _ => d

/-- `n` bytes at a byte offset of a line that can be read. -/
def Dev.peek (d : Dev) (p : Nat) (l : Line) (off n : Nat) : Option Nat :=
  (d.peekLine p l).map (fun x => lineBytes x off n)

/-- Writes `n` bytes at a byte offset of a line. -/
def Dev.poke (d : Dev) (p : Nat) (l : Line) (off n v : Nat) : Dev :=
  d.pokeLine p l (byteMask off n) (BitVec.ofNat 1024 (v % 2 ^ (8 * n) * 2 ^ (8 * off)))

end Sys2Proof.Machine
end

