-- ==== Sys2Proof/Machine/Xlate.lean ====
section
/-! DEFINITION. Translation of device virtual addresses (14 R416-R422, 11 R335), and the accesses that engines and
the control plane make through it (11 R334, R422). -/

namespace Sys2Proof.Machine

open Sys2Proof

/-- The outcome of a translation: the tables cannot be read now, a failure, or a place. -/
inductive Xl where
  | wait
  | fail
  | dev (pa : Nat)
  | host (pa : Nat)
  /-- Byte of a doorbell page: queue block, offset. -/
  | bell (block off : Nat)
  deriving DecidableEq, Repr

/-- The doorbell aperture (R335) and the doorbell window of stage 2 (R420). -/
def aperture : Nat := 0x000FFF0000000000
def bellWindow : Nat := 0x00FFF00000000000

/-- The page of a queue block for an access of partition p. -/
def Dev.bellPage (d : Dev) (p block off : Nat) : Xl := if d.partOfLode (block / 128) = some p then .bell block off else .fail

/-- A device physical address for an access of partition p: inside the partition and no spill area (R252, R296). -/
def Dev.devAddr (d : Dev) (p pa : Nat) : Xl :=
  match d.pconf p with
  | some c => if c.owns pa && !areaHas c.spill pa then .dev pa else .fail
  | none => .fail

/-- The queue blocks of an instance in ascending order (R401, R420). -/
def Dev.blocksOf (d : Dev) (fn : Nat) : List Nat := (List.range 512).filter (fun b => d.fnOfBlock b == some fn)

/-- The device translation of physical function 0 (R416). -/
def Dev.xlatePf0 (d : Dev) (p va : Nat) : Xl :=
  if va / 2 ^ 52 % 8 ≠ 0 then .fail
  else if va / 2 ^ 55 = 1 then .host (va % 2 ^ 52)
  else if aperture ≤ va ∧ va < aperture + 512 * 0x1000 then d.bellPage p ((va - aperture) / 0x1000) (va % 0x1000)
  else d.devAddr p va

/-- Memory of physical function 0 in the partition: what no slot covers (R414). -/
def Dev.pf0Memory (d : Dev) (p pa : Nat) : Bool :=
  (match d.pconf p with | some c => c.owns pa | none => false) && d.instOfPa pa == 0xFFFF

/-- Levels of the walk: low bit of the index, bits of it, log2 of a leaf's page, 0 where none is permitted (R417). -/
def walkLevels : List (Nat × Nat × Nat) := [(48, 8, 0), (39, 9, 0), (30, 9, 30), (21, 9, 21), (16, 5, 16)]

/-- The stage-2 walk from a table (R417, R418): the leaf found, and what becomes of a line that cannot be read. -/
def Dev.walk (d : Dev) (p : Nat) (s : ImgSlot) (va : Nat) : List (Nat × Nat × Nat) → Nat → Dev × (Xl × Option XlateEntry)
  | [], _ => (d, .fail, none)
  | (lo, n, page) :: rest, table =>
    let a := table + 8 * (va / 2 ^ lo % 2 ^ n)
    if !d.pf0Memory p table then (d, .fail, none)
    else
      let l : Line := ⟨false, a / 128⟩
      match d.peek p l (a % 128) 8 with
      | none => (d.claim p l false, .wait, none)
      | some e =>
        let addr := e % 2 ^ 52 / 4096 * 4096
        if e % 2 = 0 ∨ e / 16 % 2 ^ 8 ≠ 0 ∨ e / 2 ^ 52 ≠ 0 then (d, .fail, none)
        else if e / 2 % 2 = 0 then
          if e / 4 % 4 ≠ 0 then (d, .fail, none) else Dev.walk d p s va rest addr
        else if page = 0 ∨ addr % 2 ^ page ≠ 0 then (d, .fail, none)
        else
          let host := e / 8 % 2 = 1
          if !host && !(decide (s.base ≤ addr) && decide (addr + 2 ^ page ≤ s.base + s.sizeGib * 2 ^ 30)) then (d, .fail, none)
          else (d, .dev addr, some { fn := s.inst, vpage := va / 2 ^ page, bits := page, host := host, wr := e / 4 % 2 = 1, page := addr })

/-- The place that a cached leaf gives. -/
def XlateEntry.place (e : XlateEntry) (va : Nat) (write : Bool) : Xl :=
  if write && !e.wr then .fail
  else if e.host then .host (e.page + va % 2 ^ e.bits) else .dev (e.page + va % 2 ^ e.bits)

/-- The stage-2 translation of an instance (R417-R421). -/
def Dev.xlateInst (d : Dev) (p fn va : Nat) (write : Bool) : Dev × Xl :=
  match d.slot fn with
  | none => (d, .fail)
  | some s =>
    if va / 2 ^ 48 = 0xFF then
      if va < bellWindow then (d, .fail)
      else match (d.blocksOf fn)[(va - bellWindow) / 0x1000]? with
        | some b => (d, d.bellPage p b (va % 0x1000))
        | none => (d, .fail)
    else
      match d.xlate.find? (fun e => e.fn == fn && e.vpage == va / 2 ^ e.bits) with
      | some e => (d, e.place va write)
      | none =>
        let root := (d.inst fn).s2root
        if root = 0 then (d, .fail)
        else
          let (d1, x, leaf) := d.walk p s va walkLevels root
          match leaf with
          | some e => ({ d1 with xlate := d1.xlate ++ [e] }, e.place va write)
          | none => (d1, x)

/-- The translation of an address for a function of partition p. -/
def Dev.translate (d : Dev) (p fn va : Nat) (write : Bool) : Dev × Xl :=
  if va ≥ 2 ^ 56 then (d, .fail)
  else if fn ≥ 0x100 then (d, d.xlatePf0 p va)
  else d.xlateInst p fn va write

/-- The line of a place. -/
def Xl.line : Xl → Option Line
  | .dev pa => some ⟨false, pa / 128⟩
  | .host pa => some ⟨true, pa / 128⟩
  | _ => none

/-- Address of a place. -/
def Xl.pa : Xl → Nat
  | .dev pa | .host pa => pa
  | _ => 0

/-! ## Reads and writes of the control plane -/

/-- A read: not possible now, a failed translation (FETCH_FAULT), or the bytes as a number. -/
inductive Cp where
  | wait
  | fault
  | ok (v : Nat)
  deriving DecidableEq, Repr

/-- Bytes from `va` to the end of its line, at most `n`. -/
def lineSpan (va n : Nat) : Nat := min n (128 - va % 128)

/-- A read of `n` bytes at a device virtual address, line by line. -/
def Dev.cpReadFor (d : Dev) (p fn : Nat) (acct : Option Nat) : Nat → Nat → Nat → Dev × Cp
  | 0, _, _ => (d, .ok 0)
  | _, _, 0 => (d, .ok 0)
  | fuel + 1, va, n =>
    let k := lineSpan va n
    match d.translate p fn va false with
    | (d1, .wait) => (d1, .wait)
    | (d1, .fail) => (d1, .fault)
    | (d1, .bell _ _) => (d1, .fault)
    | (d1, x) =>
      match x.line with
      | none => (d1, .fault)
      | some l =>
        match d1.peek p l (x.pa % 128) k with
        | none => (d1.claim p l false, .wait)
        | some v =>
          let d2 := d1.engineBursts p l (accessSectors (x.pa % 128) k) acct
          match Dev.cpReadFor d2 p fn acct fuel (va + k) (n - k) with
          | (d3, .ok rest) => (d3, .ok (v + rest * 2 ^ (8 * k)))
          | r => r

def Dev.cpRead (d : Dev) (p fn va n : Nat) (acct : Option Nat := none) : Dev × Cp := d.cpReadFor p fn acct (n / 128 + 2) va n

/-- A write of `n` bytes within one line at a device virtual address: nothing is written unless it can be. -/
def Dev.cpWrite (d : Dev) (p fn va n v : Nat) (acct : Option Nat := none) : Dev × Cp :=
  match d.translate p fn va true with
  | (d1, .wait) => (d1, .wait)
  | (d1, .fail) => (d1, .fault)
  | (d1, .bell _ _) => (d1, .fault)
  | (d1, x) =>
    match x.line with
    | none => (d1, .fault)
    | some l =>
      if d1.canWrite p l then
        ((d1.engineBursts p l (accessSectors (x.pa % 128) n) acct).poke p l (x.pa % 128) n v, .ok 0)
      else (d1.claim p l true, .wait)

end Sys2Proof.Machine
end

