-- ==== Sys2Proof/Machine/Queue.lean ====
section
/-! DEFINITION. Queues: descriptors, doorbell registers, creation, cursors and release, completion, ERROR (11 R328-R345,
R354-R363, 12 R368, R369). -/

namespace Sys2Proof.Machine

open Sys2Proof

/-! ## Status codes (R361, R121, R278, R389, 15 R456) -/

def stTimeout : Nat := 0x0011
def stSquashed : Nat := 0x0012
def stBadClass : Nat := 0x0021
def stPrivileged : Nat := 0x0022
def stBadDescriptor : Nat := 0x0023
def stBadEngine : Nat := 0x0024
def stIndirectRefused : Nat := 0x0025
def stClusterRejected : Nat := 0x0026
def stResourceRejected : Nat := 0x0027
def stFetchFault : Nat := 0x0028
def stQueueRange : Nat := 0x0029
def stDoorbellOverrun : Nat := 0x002B
def waitDep : Nat := 0x0031
def waitFence : Nat := 0x0032
def waitWindow : Nat := 0x0033
def waitEngine : Nat := 0x0034
def waitTimer : Nat := 0x0041
def waitSpill : Nat := 0x0042
def waitLedger : Nat := 0x0043
def stDebugKilled : Nat := 0x0051
def stDebugNotHalted : Nat := 0x0052
def stDebugBusy : Nat := 0x0053
def stDebugNoRing : Nat := 0x0054
def stDebugRange : Nat := 0x0055
def stPartitionLost : Nat := 0x0071

/-! ## Descriptor fields (R345) -/

def Task.cls (t : Task) : Nat := bytesAt t.desc 0 1
def Task.flags (t : Task) : Nat := bytesAt t.desc 1 1
def Task.cpl (t : Task) : Bool := t.flags % 2 = 1
def Task.debug (t : Task) : Bool := t.flags / 2 % 2 = 1
def Task.indirect (t : Task) : Bool := t.flags / 4 % 2 = 1
def Task.engine (t : Task) : Nat := bytesAt t.desc 2 1
def Task.slot (t : Task) : Nat := t.engine % 4
def Task.fop (t : Task) : Nat := bytesAt t.desc 3 1
def Task.tag (t : Task) : Nat := bytesAt t.desc 4 4
def Task.dep (t : Task) (k : Nat) : Nat := bytesAt t.desc 8 10 / 2 ^ (20 * k) % 2 ^ 20
def Task.aux16 (t : Task) : Nat := bytesAt t.desc 0x12 2
def Task.aux32 (t : Task) : Nat := bytesAt t.desc 0x14 4
def Task.cplVa (t : Task) : Nat := bytesAt t.desc 0x18 8
/-- Fence entries 0-3: wait 0, wait 1, signal 0, signal 1: used, address, value. -/
def Task.fenceUsed (t : Task) (k : Nat) : Bool := t.fop.testBit k
def Task.fenceVa (t : Task) (k : Nat) : Nat := bytesAt t.desc (0x20 + 16 * k) 8
def Task.fenceVal (t : Task) (k : Nat) : Nat := bytesAt t.desc (0x28 + 16 * k) 8
/-- Body words at 0x60, 0x68, 0x70, 0x78. -/
def Task.body (t : Task) (k : Nat) : Nat := bytesAt t.desc (0x60 + 8 * k) 8

/-! ## Classes (R346) -/

def clsKernel : Nat := 0x01
def clsQueueCreate : Nat := 0x40
def clsQueueDestroy : Nat := 0x41
def clsTagClose : Nat := 0x44

/-- Where a class runs. -/
inductive RunsOn where
  | compute | copy | coll | quarter
  deriving DecidableEq, Repr

/-- The class table; none for an unknown class. -/
def classOf (c : Nat) : Option RunsOn :=
  if c = 0x01 then some .compute
  else if c = 0x02 then some .quarter
  else if (0x10 ≤ c ∧ c ≤ 0x13) ∨ c = 0x18 ∨ c = 0x19 then some .copy
  else if c = 0x20 then some .coll
  else if (0x40 ≤ c ∧ c ≤ 0x44) ∨ (0x48 ≤ c ∧ c ≤ 0x4E) then some .quarter
  else none

/-- Kernel-only classes. -/
def kernelOnly (c : Nat) : Bool := decide (0x40 ≤ c)

/-- Engine type codes of R341. -/
def RunsOn.code : RunsOn → Nat
  | .compute => 0 | .copy => 1 | .coll => 2 | .quarter => 3

/-! ## Bindings (R341) -/

def bindByte (b : Word) (s : Nat) : Nat := b.toNat / 2 ^ (8 * s) % 256
def bindValid (x : Nat) : Bool := x.testBit 7
def bindType (x : Nat) : Nat := x / 16 % 8
def bindNum (x : Nat) : Nat := x % 16

/-- The lode of an engine. -/
def engineLode (ty n : Nat) : Nat := if ty = 2 then n else n / 2

/-- Whether a binding satisfies R341 for a queue of partition p. -/
def Dev.bindingOk (d : Dev) (p : Nat) (b : Word) : Bool :=
  let xs := (List.range 4).map (bindByte b)
  let vs := xs.filter bindValid
  !vs.isEmpty && xs.all (fun x => bindValid x || x == 0) && decide (vs.eraseDups.length = vs.length)
    && vs.all (fun x => decide (bindType x < 3) && decide (bindNum x < (if bindType x = 2 then 4 else 8))
        && d.partOfLode (engineLode (bindType x) (bindNum x)) == some p)

/-! ## Queues -/

/-- The function that owns a queue. -/
def Dev.fnOfQueue (d : Dev) (q : Nat) : Nat := (d.fnOfBlock (q / 64)).getD 0

/-- The instance state of a function; physical function 0 always runs. -/
def Dev.fnState (d : Dev) (fn : Nat) : InstState := if fn < 0x100 then (d.inst fn).state else .running

/-- Whether doorbell writes to a queue are taken (R384, R430, R434). [DEDUCED, log 25] -/
def Dev.bellTaken (d : Dev) (q : Nat) : Bool :=
  match d.partOfQueue q with
  | none => false
  | some p => decide (q < 32768) && d.partRuns p && (match d.fnState (d.fnOfQueue q) with
      | .running | .freezing | .frozen | .restoring => true
      | _ => false)

/-- Whether a queue's cursors fetch and take heads (R330, R434). -/
def Dev.fetches (d : Dev) (q : Nat) : Bool :=
  match d.partOfQueue q with
  | none => false
  | some p => (d.queue q).state == .active && d.partRuns p && d.fnState (d.fnOfQueue q) == .running

/-- The checks of a queue to be created, in the order of R352; the target is FREE. -/
def Dev.createStatus (d : Dev) (p : Nat) (reserved : Bool) (binding : Word) (timeout ringVa log2 : Nat) : Nat :=
  if !reserved then stBadDescriptor
  else if !d.bindingOk p binding then stBadEngine
  else if !(decide (1 ≤ timeout) && decide (timeout ≤ 60000000) && ringVa % 128 == 0 && decide (ringVa < 2 ^ 56)
      && decide (6 ≤ log2) && decide (log2 ≤ 20)) then stBadDescriptor
  else 0

/-- A created queue (R329, R332); the bootstrap registers stay as written. [DEDUCED, log 25] -/
def Queue.create (old : Queue) (fn : Nat) (kernel : Bool) (prio timeout : Nat) (binding : Word) (ringVa log2 start : Nat) : Queue :=
  { ringVa := ringVa, log2 := log2, state := .active, fn := fn, kernel := kernel, prio := prio, timeout := timeout,
    binding := binding, producer := start, retired := start, fetched := start, bootRing := old.bootRing, bootCfg := old.bootCfg }

/-- The bootstrap queue of each function is the first queue of its lowest-numbered block (R340). -/
def Dev.isBootQueue (d : Dev) (q : Nat) : Bool :=
  q % 64 == 0 && (match d.fnOfBlock (q / 64) with
    | some fn => (d.blocksOf fn).head? == some (q / 64)
    | none => false)

/-! ## The tracker (R332, R354, R362) -/

/-- The retired index rises past every leading task that has ended. In ERROR, the tasks never read have ended too. -/
def Queue.riseFor (x : Queue) : Nat → Queue
  | 0 => x
  | fuel + 1 =>
    match x.ended.find? (fun e => e.1 == x.retired) with
    | some _ => Queue.riseFor { x with ended := x.ended.filter (fun e => e.1 != x.retired), retired := x.retired + 1 } fuel
    | none => x

def Queue.rise (x : Queue) : Queue :=
  let y := x.riseFor (x.ended.length + 1)
  if y.state = .error ∧ y.retired = y.fetched then { y with retired := y.producer, fetched := y.producer } else y

/-- Outcomes of R363: statuses that leave a queue ACTIVE. -/
def isOutcome (st cls : Nat) : Bool :=
  st == stQueueRange || st == 0x0061 || st == 0x0062 || st == stDebugNotHalted || st == stDebugBusy || st == stDebugNoRing
    || st == stDebugRange || (cls == clsQueueCreate && (st == stBadEngine || st == stBadDescriptor))

/-- Whether a status counts as completed. `rejected` marks a rejection of R356, which is a failure whatever its code. -/
def completes (st cls : Nat) (rejected : Bool) : Bool := !rejected && (st == 0 || isOutcome st cls)

/-- The 32 bytes of a completion record (R360). -/
def recordBytes (i st cls q info time : Nat) : Nat :=
  i % 2 ^ 64 + (st % 2 ^ 16) <<< 64 + (cls % 256) <<< 80 + q <<< 96 + (info % 2 ^ 64) <<< 128 + (time % 2 ^ 64) <<< 192

/-- Writes the completion record of a task, when cpl asks for one. -/
def Dev.cplRecord (d : Dev) (p : Nat) (t : Task) (st info : Nat) : Dev × Cp :=
  if t.cpl then d.cpWrite p (d.fnOfQueue t.q) t.cplVa 32 (recordBytes t.i st t.cls t.q info d.time) else (d, .ok 0)

/-- One fence signal (R358): an ADD or a MAX on the word. -/
def Dev.signal (d : Dev) (p fn va val : Nat) (isMax : Bool) : Dev × Cp :=
  match d.cpRead p fn va 8 with
  | (d1, .ok old) => d1.cpWrite p fn va 8 (if isMax then max old val else (old + val) % 2 ^ 64)
  | r => r

/-- The signals of a task from number `k`, in order; sig1 of a PUT may be the target's to perform (15 R453). -/
def Dev.signals (d : Dev) (p fn : Nat) (t : Task) : Nat → Dev × Task × Cp
  | 0 => (d, t, .ok 0)
  | fuel + 1 =>
    if t.stage ≥ 2 then (d, t, .ok 0)
    else if !t.fenceUsed (2 + t.stage) || (t.stage == 1 && t.cls == 0x18 && decide (t.aux16 ≥ 2 ^ 15)) then Dev.signals d p fn { t with stage := t.stage + 1 } fuel
    else match d.signal p fn (t.fenceVa (2 + t.stage)) (t.fenceVal (2 + t.stage)) (t.fop.testBit (4 + t.stage)) with
      | (d1, .ok _) => Dev.signals d1 p fn { t with stage := t.stage + 1 } fuel
      | (d1, r) => (d1, t, r)

/-- Adds one drained task to the destruction that drains its queue (R378). -/
def Dev.countDrained (d : Dev) (q st : Nat) : Dev :=
  { d with tasks := d.tasks.map (fun (t : Task) => match t.work with
      | .destroy target sq dr tmo killed =>
        if target = q then { t with work := if st = stTimeout then .destroy target sq dr (tmo + 1) killed else .destroy target sq (dr + 1) tmo killed }
        else t
      | _ => t) }

/-- Step 3 of R358: the tracker marks the task, and the retired index rises. -/
def Dev.retire (d : Dev) (t : Task) (st : Nat) (ok : Bool) : Dev :=
  let x := d.queue t.q
  let d1 := (d.delTask t.q t.i).delRun t.q t.i
  let d2 := d1.setQueue t.q ({ x with ended := x.ended ++ [(t.i, ok)] } : Queue).rise
  if x.state = .destroying && t.timer.isSome then d2.countDrained t.q st else d2

/-- The end of a task that writes only its record: squashed, failed (R358, R362). [DEDUCED, log 25] -/
def Dev.endTask (d : Dev) (p : Nat) (t : Task) (st info : Nat) : Dev :=
  match d.cplRecord p t st info with
  | (d1, .wait) => d1.setTask { t with state := .done st info }
  | (d1, _) => d1.retire t st false

/-- A queue enters ERROR (R362): its unreleased tasks are squashed, the read ones with records. -/
def Dev.enterError (d : Dev) (p q i st : Nat) : Dev :=
  let x := d.queue q
  if x.state = .active then
    let mine := d.tasks.filter (fun t => t.q == q && t.state == .fetched && t.i != i)
    let n := mine.length + (x.producer - x.fetched)
    let d1 := d.setQueue q ({ x with state := .error, errStatus := st, errIndex := i, squashed := (x.squashed + n) % 2 ^ 32 } : Queue).rise
    mine.foldl (fun (e : Dev) t => e.endTask p { t with state := .done stSquashed 0 } stSquashed 0) d1
  else d

/-- The completion of a task whose work is done (R358, R362, R363); what cannot be written now is left for a later
TASK_DONE. -/
def Dev.finish (d : Dev) (p : Nat) (t : Task) (st info : Nat) (rejected : Bool) : Dev :=
  let d0 := d.setTask { t with state := .done st info }
  let t0 : Task := { t with state := .done st info }
  if completes st t.cls rejected then
    match d0.signals p (d.fnOfQueue t.q) t0 3 with
    | (d1, t1, .wait) => d1.setTask t1
    | (d1, t1, .fault) => (d1.enterError p t.q t.i stFetchFault).endTask p t1 stFetchFault info
    | (d1, t1, .ok _) =>
      match d1.cplRecord p t1 st info with
      | (d2, .wait) => d2.setTask t1
      | (d2, .fault) => (d2.enterError p t.q t.i stFetchFault).retire t1 st true
      | (d2, .ok _) => d2.retire t1 st true
  else if st = stSquashed then d0.endTask p t0 st info
  else (d0.enterError p t.q t.i st).endTask p t0 st info

/-! ## Heads (R343, R582) -/

/-- The checks of R582 on a task that becomes a head; 0 when it passes. -/
def Dev.headStatus (d : Dev) (t : Task) : Nat :=
  let x := d.queue t.q
  match classOf t.cls with
  | none => stBadClass
  | some r =>
    let fenceOk := fun (k : Nat) => if t.fenceUsed k then t.fenceVa k % 8 == 0 else t.fenceVa k == 0 && t.fenceVal k == 0
    let b := bindByte x.binding t.slot
    if kernelOnly t.cls && !x.kernel then stPrivileged
    else if !(decide (t.flags < 8) && decide (t.engine < 4) && decide (t.fop < 64) && (t.cls == clsKernel || decide (t.flags < 2))
        && fenceOk 0 && fenceOk 1 && fenceOk 2 && fenceOk 3 && (if t.cpl then t.cplVa % 32 == 0 else t.cplVa == 0)
        && (!(t.cls == 0x02 || t.cls == clsTagClose) || (t.aux16 == 0 && t.aux32 == 0))) then stBadDescriptor
    else if !bindValid b || (r != .quarter && bindType b != r.code) then stBadEngine
    else 0

/-! ## Conditions of release (R354-R356) -/

/-- Whether every back-reference is met (R354). -/
def Dev.depsMet (d : Dev) (t : Task) : Bool :=
  let x := d.queue t.q
  (List.range 4).all (fun k =>
    let n := t.dep k
    n == 0 || decide (n > t.i) || decide (t.i - n < x.retired) || x.ended.contains (t.i - n, true))

/-- Progress of the fence waits: met, unmet, or a word that cannot be reached (R355). -/
inductive Fences where
  | met | unmet | fault
  deriving DecidableEq, Repr

/-- Reads the words of the fence waits. -/
def Dev.fences (d : Dev) (p : Nat) (t : Task) : Dev × Fences :=
  (List.range 2).foldl (fun (r : Dev × Fences) k =>
    if r.2 = .fault || !t.fenceUsed k then r
    else match r.1.cpRead p (d.fnOfQueue t.q) (t.fenceVa k) 8 with
      | (d1, .fault) => (d1, .fault)
      | (d1, .wait) => (d1, .unmet)
      | (d1, .ok v) => if v ≥ t.fenceVal k then (d1, r.2) else (d1, .unmet)) (d, .met)

/-- Task-timer slots reserved to a block (R76). -/
def Dev.timerReserve (d : Dev) (b : Nat) : Nat := match d.conf.timers.find? (fun x => x.1 == b) with | some x => x.2 | none => 0

/-- Slots of the partition's unreserved remainder. -/
def Dev.timerRemainder (d : Dev) (p : Nat) : Nat :=
  8192 - (d.conf.timers.filter (fun x => d.partOfLode (x.1 / 128) == some p)).foldl (fun n x => n + x.2) 0

/-- The slot a task of queue q would take: some true from its block's reservation, some false from the remainder. -/
def Dev.timerSlot (d : Dev) (p q : Nat) : Option Bool :=
  let mine := (d.tasks.filter (fun t => t.timer == some true && t.q / 64 == q / 64)).length
  let rest := (d.tasks.filter (fun t => t.timer == some false && d.partOfQueue t.q == some p)).length
  if mine < d.timerReserve (q / 64) then some true
  else if rest < d.timerRemainder p then some false
  else none

/-- Active tasks of an engine: released and not complete (R368). -/
def Dev.activeOn (d : Dev) (r : RunsOn) (n : Nat) : Nat :=
  (d.tasks.filter (fun t => t.timer.isSome && classOf t.cls == some r && bindNum (bindByte (d.queue t.q).binding t.slot) == n)).length

/-- How many tasks an engine holds (R368). -/
def RunsOn.limit : RunsOn → Nat
  | .compute => 32 | .copy => 16 | .coll => 8 | .quarter => 0

/-- Whether the engine of a task accepts one more. -/
def Dev.accepts (d : Dev) (t : Task) : Bool :=
  match classOf t.cls with
  | some .quarter => true
  | some r => decide (d.activeOn r (bindNum (bindByte (d.queue t.q).binding t.slot)) < r.limit)
  | none => true

/-! ## Accounts (19 R537, R546) -/

/-- Accounts of a function: n_i of an instance's slot, 255 of physical function 0 (R535). -/
def Dev.accountsOf (d : Dev) (fn : Nat) : Nat :=
  if fn ≥ 0x100 then 255 else match d.slot fn with | some s => s.accounts | none => 0

/-- The open account of a function that holds a tag and is not closing. -/
def Dev.openAccount (d : Dev) (fn tag : Nat) : Option Ticket :=
  d.ledger.page.tickets.find? (fun t => t.fn == fn && t.num != 0 && t.tag == tag && !t.final && !t.closing)

/-- The lowest-numbered free account of a function. -/
def Dev.freeAccount (d : Dev) (fn : Nat) : Option Nat :=
  (List.range (d.accountsOf fn)).find? (fun k => !(d.ledger.page.tickets.any (fun t => t.fn == fn && t.num == k + 1 && !t.final))) |>.map (· + 1)

/-- Whether a release would open an account while the page is full: LEDGER_WAIT (R546). -/
def Dev.ledgerWait (d : Dev) (fn tag cls : Nat) : Bool :=
  cls != clsTagClose && (d.openAccount fn tag).isNone && (d.freeAccount fn).isSome && decide (d.ledger.page.tickets.length ≥ 65536)

/-- The account a released task is bound to, opened where none is (R537); the key is function · 2^16 + account. -/
def Dev.bindAccount (d : Dev) (fn tag : Nat) : Dev × Nat :=
  match d.openAccount fn tag with
  | some t => (d, fn * 65536 + t.num)
  | none =>
    match d.freeAccount fn with
    | some k =>
      let pg := d.ledger.page
      ({ d with ledger := { d.ledger with page := { pg with tickets := pg.tickets ++ [{ fn := fn, num := k, tag := tag, opened := d.time, openedHere := true }] } } },
        fn * 65536 + k)
    | none => (d, fn * 65536)

/-! ## Release (R356, R369) -/

/-- The head task of a binding slot of a queue: its lowest unreleased task. -/
def Dev.headOf (d : Dev) (q s : Nat) : Option Task :=
  (d.tasks.filter (fun t => t.q == q && t.slot == s && !t.timer.isSome && t.state != .done stSquashed 0)).foldl
    (fun (b : Option Task) t => match b with
      | none => some t
      | some x => if t.i < x.i then some t else some x) none

/-- The first unmet condition of a head task, in the order of R357; 0 when it is releasable. The fence words are read
without effect. -/
def Dev.headWait (d : Dev) (p : Nat) (t : Task) : Nat :=
  if !d.depsMet t then waitDep
  else if (d.fences p t).2 == .unmet then waitFence
  else if (d.timerSlot p t.q).isNone then waitTimer
  else if !d.accepts t || decide (d.stage ≥ 3) then waitEngine
  else if d.ledgerWait (d.fnOfQueue t.q) t.tag t.cls then waitLedger
  else 0

/-- Releases a head task: timer slot, account, the acquire of R244. A TAG_CLOSE takes no account: it acts on the one
that is open (19 R538). [DEDUCED, log 24] -/
def Dev.releaseTask (d : Dev) (p : Nat) (t : Task) : Dev :=
  let (d1, a) := if t.cls = clsTagClose then (d, none) else
    match d.bindAccount (d.fnOfQueue t.q) t.tag with
    | (e, n) => (e, some n)
  let d2 := d1.setTask { t with state := .released, head := true, timer := d.timerSlot p t.q, acct := a }
  match classOf t.cls with
  | some .quarter => d2
  | some r =>
    let n := bindNum (bindByte (d.queue t.q).binding t.slot)
    let e : Engine := sget {} d.engines (r.code * 16 + n)
    { d2 with engines := sput d.engines (r.code * 16 + n) { e with last := e.last.set (d.queue t.q).prio t.q } }
  | none => d2

/-- A head in the fetched state of queue q, slot s, in a queue whose cursors run. -/
def Dev.waitingHead (d : Dev) (q s : Nat) : Option Task :=
  match d.headOf q s with
  | some t => if t.state = .fetched then some t else none
  | none => none

/-- Queues of a partition with tasks read and not complete, ascending. -/
def Dev.busyQueues (d : Dev) (p : Nat) : List Nat :=
  (d.queues.map (fun x => x.1)).filter (fun q => d.partOfQueue q == some p && d.fetches q && d.tasks.any (fun t => t.q == q))

/-- The heads of the partition's cursors. -/
def Dev.heads (d : Dev) (p : Nat) : List Task :=
  (d.busyQueues p).flatMap (fun q => (List.range 4).filterMap (fun s => d.waitingHead q s))

/-- Whether task `a` goes before task `b` among releasable heads: of one engine, the higher level, then the cursor that
follows the one last taken from; else the lower queue. -/
def Dev.before (d : Dev) (a b : Task) : Bool :=
  let qa := d.queue a.q
  let qb := d.queue b.q
  let na := bindByte qa.binding a.slot
  let nb := bindByte qb.binding b.slot
  if na = nb ∧ classOf a.cls = classOf b.cls ∧ classOf a.cls ≠ some .quarter then
    if qa.prio ≠ qb.prio then decide (qa.prio > qb.prio)
    else
      let e : Engine := sget {} d.engines (bindType na * 16 + bindNum na)
      let last := e.last.getD qa.prio 0
      let rank := fun (q : Nat) => if q > last then q else q + 65536
      decide (rank a.q < rank b.q)
  else decide (a.q < b.q)

/-- One step of the quarters of a partition: a task becomes a head and is checked, a fence word that cannot be reached
rejects it, or one head is released. None when nothing can be done. [DEDUCED, log 24] -/
def Dev.pumpOne (d : Dev) (p : Nat) : Option Dev :=
  let hs := d.heads p
  match hs.find? (fun t => !t.head) with
  | some t =>
    let st := d.headStatus t
    some (if st = 0 then d.setTask { t with head := true } else d.finish p { t with head := true } st 0 true)
  | none =>
    match hs.find? (fun t => d.depsMet t && (d.fences p t).2 == .fault) with
    | some t => some (d.finish p t stFetchFault 0 true)
    | none =>
      match hs.filter (fun t => d.headWait p t == 0) with
      | [] => none
      | t :: ts => some (d.releaseTask p (ts.foldl (fun b c => if d.before c b then c else b) t))

def Dev.pumpFor (d : Dev) (p : Nat) : Nat → Dev
  | 0 => d
  | fuel + 1 => match d.pumpOne p with
    | none => d
    | some d1 => Dev.pumpFor d1 p fuel

/-- What brings the lines of unmet fence waits that cannot be read now (R355). -/
def Dev.pollFences (d : Dev) (p : Nat) : Dev :=
  (d.heads p).foldl (fun (e : Dev) t => if e.depsMet t then (e.fences p t).1 else e) d

/-- The quarters of a partition take heads and release what can be released. [DEDUCED, log 24] -/
def Dev.pump (d : Dev) (p : Nat) : Dev :=
  let d1 := d.pumpFor p (3 * d.tasks.length + 4)
  d1.pollFences p

/-! ## Doorbell registers (R336, R337, R340, R357) -/

/-- Whether a contribution of a task waits at its home for a spill record (R300). -/
def Dev.spillWaits (d : Dev) (t : Task) : Bool :=
  d.slices.any (fun s => s.2.waitq.any (fun r =>
    (match r.kind with | .redc .. => true | _ => false) && (s.2.awaitOf r.line).isNone
      && (match r.src with
          | .core die core => (d.core (coreKey die core)).outs.any (fun o => o.id == r.rid && o.q == t.q && o.i == t.i)
          | u => d.engOuts.any (fun o => o.unit == u && o.id == r.rid && o.q == t.q && o.i == t.i))))

/-- Whether a released task of a cursor waits for the pools of R78. -/
def Dev.poolWait (d : Dev) (q s : Nat) : Nat :=
  let mine := d.tasks.filter (fun t => t.q == q && t.slot == s && t.timer.isSome)
  if mine.any (fun t => d.spillWaits t) then waitSpill
  else if mine.any (fun t => match t.work with | .tagClose _ => !d.ledger.waiting.isEmpty | _ => false) then waitLedger
  else 0

/-- wait_s of DBL_WAIT (R357). -/
def Dev.waitCode (d : Dev) (p q s : Nat) : Nat :=
  let x := d.queue q
  if x.state ≠ .active then 0
  else match d.waitingHead q s with
    | some t => let w := d.headWait p t; if w ≠ 0 then w else d.poolWait q s
    | none =>
      if x.fetched < x.producer ∧ x.fetched ≥ x.retired + 256 then waitWindow
      else d.poolWait q s

def QState.code : QState → Nat
  | .free => 0 | .active => 1 | .error => 2 | .destroying => 3

/-- A read of a doorbell register (R336). -/
def Dev.bellRead (d : Dev) (q off : Nat) : Nat :=
  let x := d.queue q
  match off with
  | 0x08 => x.state.code + (if x.kernel then 4 else 0) + x.prio * 8 + x.errStatus * 2 ^ 16 + x.squashed * 2 ^ 32
  | 0x10 => x.retired
  | 0x18 => match d.partOfQueue q with
    | some p => (List.range 4).foldl (fun n s => n + d.waitCode p q s * 2 ^ (16 * s)) 0
    | none => 0
  | 0x20 => x.bootRing.toNat
  | 0x28 => x.bootCfg.toNat
  | 0x30 => x.errIndex
  | _ => 0

/-- A write of DBL_PRODUCER (R337). -/
def Dev.ring (d : Dev) (p q v : Nat) : Dev :=
  let x := d.queue q
  if x.state ≠ .active ∨ v ≤ x.producer then d
  else if v > x.retired + 2 ^ x.log2 then d.enterError p q x.producer stDoorbellOverrun
  else d.setQueue q { x with producer := v }

/-- A write of DBL_BOOT_CFG (R340). -/
def Dev.bootCreate (d : Dev) (p q v : Nat) : Dev :=
  let x := d.queue q
  if x.state ≠ .free || !d.isBootQueue q then d
  else
    let x1 := { x with bootCfg := BitVec.ofNat 64 (v % 2 ^ 63) }
    if v / 2 ^ 63 % 2 = 0 then d.setQueue q x1
    else
      let b := BitVec.ofNat 32 v
      let t := v / 2 ^ 32 % 2 ^ 26
      let ringVa := x.bootRing.toNat % 2 ^ 56
      let log2 := x.bootRing.toNat / 2 ^ 56
      let st := d.createStatus p (v / 2 ^ 60 % 8 == 0) b t ringVa log2
      if st = 0 then d.setQueue q (x1.create (d.fnOfQueue q) true (v / 2 ^ 58 % 4) t b ringVa log2 0)
      else d.setQueue q { x1 with errStatus := st }

/-- A write of 8 bytes to a doorbell register (R336). -/
def Dev.bellWrite (d : Dev) (q off v : Nat) : Dev :=
  match d.partOfQueue q with
  | none => d
  | some p =>
    if !d.bellTaken q then d
    else match off with
      | 0x00 => d.ring p q v
      | 0x20 => let x := d.queue q; if x.state = .free ∧ d.isBootQueue q then d.setQueue q { x with bootRing := BitVec.ofNat 64 v } else d
      | 0x28 => d.bootCreate p q v
      | _ => d

/-- Queue and register offset of a byte of a doorbell page (R335). -/
def bellQueue (block off : Nat) : Nat := 64 * block + off / 64
def bellReg (off : Nat) : Nat := off % 64

end Sys2Proof.Machine
end

