-- ==== Sys2Proof/Machine/Lsu.lean ====
section
/-! DEFINITION. Loads, stores, constant loads, prefetches, atomics, reductions and fences of a group (04 R140, R151-R154,
R157-R160, 07 R226-R239, 09 R285-R287). -/

namespace Sys2Proof.Machine

open Sys2Proof

/-! ## Local memory (R96, R151, R152) -/

/-- A place in local memory: core key, block slot, offset. -/
structure LocPlace where
  ck   : Nat
  slot : Nat
  off  : Nat
  deriving DecidableEq, Repr

/-- The place of `n` bytes at a local offset; none outside the ranges of R96. [DEDUCED, log 16] -/
def Dev.localPlace (d : Dev) (c : Ctx) (off n : Nat) : Option LocPlace :=
  match d.blockOf c.key c.grp with
  | none => none
  | some b =>
    if off < 0x80000 then (if off + n ≤ b.lmem * 1024 then some ⟨c.coreKey, b.slot, off⟩ else none)
    else if off < 0x800000 then none
    else
      let k := (off - 0x800000) / 0x80000
      let o := off % 0x80000
      if k < c.run.cx * c.run.cy * c.run.cz ∧ k < 16 then
        match (d.clusterOf c.die b).find? (fun x => x.2.rank == k) with
        | some x => if o + n ≤ x.2.lmem * 1024 then some ⟨x.1, x.2.slot, o⟩ else none
        | none => none
      else none

/-- `n` bytes of a block's local memory from an offset, and their replacement. -/
def Block.readLoc (b : Block) (off : Nat) : Nat → Nat
  | 0 => 0
  | n + 1 => (sget 0#8 b.loc off).toNat + 256 * Block.readLoc b (off + 1) n

def Block.writeLoc (b : Block) (off : Nat) : Nat → Nat → Block
  | 0, _ => b
  | n + 1, v => Block.writeLoc { b with loc := sset 0#8 b.loc off (BitVec.ofNat 8 v) } (off + 1) n (v / 256)

/-- A read of local memory. -/
def Dev.readLoc (d : Dev) (x : LocPlace) (n : Nat) : Nat :=
  match (d.core x.ck).block x.slot with
  | some b => b.readLoc x.off n
  | none => 0

/-- A write of local memory. -/
def Dev.writeLoc (d : Dev) (x : LocPlace) (n v : Nat) : Dev :=
  match (d.core x.ck).block x.slot with
  | some b => d.setCore x.ck ((d.core x.ck).setBlock (b.writeLoc x.off n v))
  | none => d

/-- Waves of a local access: the most distinct words in any of 32 banks, at least 1 (R151). -/
def waves (offs : List Nat) (n : Nat) : Nat :=
  let words := (offs.flatMap (fun o => (List.range ((n + 3) / 4)).map (fun k => o / 4 + k))).eraseDups
  (List.range 32).foldl (fun m b => max m (words.filter (fun x => x % 32 == b)).length) 1

/-- Increments the L1's epoch after an acquire at CLUSTER scope or wider (R237). -/
def Dev.acquire (d : Dev) (ck sem scope : Nat) : Dev :=
  if bumps sem scope then d.setCore ck (d.core ck).bumpEpoch else d

/-- The lanes an access is ordered for: in the uniform form, all of the path. -/
def Ctx.accessLanes (c : Ctx) (guard : BitVec 5) (uf : Bool) : Lanes :=
  if (c.takers guard uf).isEmpty then 0 else if uf then c.path.mask else c.lanes guard

/-- The earlier accesses of its lanes an access must wait for: an acquire in progress; for a write, loads that have
not obtained their values (R229); for a release, all that its scope names (R238). [DEDUCED, log 14] -/
def Dev.mustWait (d : Dev) (c : Ctx) (lanes : Lanes) (write : Bool) (sem scope : Nat) : Bool :=
  d.acquiring c lanes
    || (write && (d.core c.coreKey).loads.any (fun l => l.gkey == c.key && l.lanes &&& lanes != 0))
    || ((sem == 2 || sem == 3) && d.unperformed c lanes scope)

/-- An address-kind job fault at issue. -/
def Dev.addressFault (d : Dev) (c : Ctx) : Issued := { dev := d.jobFault c.part causeAddress c.die }

/-- sem of a load (RLX, ACQ) or a store (RLX, REL) (R143). -/
def loadSem (w : FmtM) : Bool := w.sem == 0 || w.sem == 1
def storeSem (w : FmtM) : Bool := w.sem == 0 || w.sem == 2

/-- The local addresses of an access's lanes. -/
def localLanes (c : Ctx) (w : FmtM) : List (Nat × Nat) := (c.takers w.guard w.uf).map (fun l => (l, mAddr32 c.grp w l))

/-- Whether every lane's local address is aligned and valid. -/
def Dev.localOk (d : Dev) (c : Ctx) (ls : List (Nat × Nat)) (n : Nat) : Bool :=
  ls.all (fun x => x.2 % n == 0 && (d.localPlace c x.2 n).isSome)

/-- LD.LOCAL (R151, R152). [DEDUCED, log 11] -/
def doLdLocal (g : GroupRef) (w : FmtM) (d : Dev) : Dev :=
  d.issueGen g (fun c => mUses c.grp.nv w 1 true true (loadSem w && w.hint == 0)) true (fun c =>
    let n := widthBytes w.width
    let ls := localLanes c w
    if !d.localOk c ls n then d.addressFault c
    else if d.mustWait c (c.accessLanes w.guard w.uf) false w.sem.toNat w.scope.toNat then { dev := d, went := false }
    else
      let grp := ls.foldl (fun (h : Group) x => match d.localPlace c x.2 n with
        | some p => writeLoaded h w.uf w.d.toNat x.1 w.width.toNat (d.readLoc p n)
        | none => h) c.grp
      let d1 := d.setGroup c.key grp
      { dev := if ls.isEmpty then d1 else d1.acquire c.coreKey w.sem.toNat w.scope.toNat,
        slots := if w.uf then 1 else waves (ls.map (fun x => x.2)) n, next := some (c.path.pc + insLen w.lf) })

def execLdLocal (g : GroupRef) (w : FmtM) (s : State) : Host.Outcome State Fault Refusal := done s (doLdLocal g w s.dev)

/-- ST.LOCAL: of several lanes that write one byte the highest wins (R154). -/
def doStLocal (g : GroupRef) (w : FmtM) (d : Dev) : Dev :=
  d.issueGen g (fun c => mUses c.grp.nv w 1 true false (storeSem w && w.hint == 0)) true (fun c =>
    let n := widthBytes w.width
    let ls := localLanes c w
    if !d.localOk c ls n then d.addressFault c
    else if d.mustWait c (c.accessLanes w.guard w.uf) true w.sem.toNat w.scope.toNat || d.localPending c.key then { dev := d, went := false }
    else
      let d1 := ls.foldl (fun (e : Dev) x => match d.localPlace c x.2 n with
        | some p => e.writeLoc p n (mData c.grp w x.1)
        | none => e) d
      { dev := d1, slots := if w.uf then 1 else waves (ls.map (fun x => x.2)) n, next := some (c.path.pc + insLen w.lf) })

def execStLocal (g : GroupRef) (w : FmtM) (s : State) : Host.Outcome State Fault Refusal := done s (doStLocal g w s.dev)

/-! ## Global addresses -/

/-- The translation of the lanes of an access (R152): a fault, a walk that must wait, or the place of each lane. -/
inductive Places where
  | fault
  | wait (d : Dev)
  | ok (d : Dev) (ts : List (Nat × Xl))

/-- Translates lane addresses in ascending lane order. A doorbell page answers only loads and stores (R335). -/
def Dev.places (d : Dev) (p fn : Nat) (write bell : Bool) (align : Nat) : List (Nat × Nat) → Places
  | [] => .ok d []
  | (lane, va) :: rest =>
    if va % align ≠ 0 then .fault
    else match d.translate p fn va write with
      | (_, .fail) => .fault
      | (d1, .wait) => .wait d1
      | (d1, x) =>
        if x.line.isNone && !bell then .fault
        else match Dev.places d1 p fn write bell align rest with
          | .ok d2 ts => .ok d2 ((lane, x) :: ts)
          | r => r

/-- The distinct lines of the places, in ascending order of the lowest lane, each with the sectors touched. -/
def linesOf (n : Nat) : List (Nat × Xl) → List (Line × BitVec 4)
  | [] => []
  | (_, x) :: rest =>
    let more := linesOf n rest
    match x.line with
    | none => more
    | some l =>
      let s := accessSectors (x.pa % 128) n
      let same := more.filter (fun y => y.1 == l)
      (l, same.foldl (fun (m : BitVec 4) y => m ||| y.2) s) :: more.filter (fun y => y.1 != l)

/-- Slots of a global access: one per distinct line, at least 1 (R151). -/
def lineSlots (uf : Bool) (ls : List (Line × BitVec 4)) : Nat := if uf then 1 else max 1 ls.length

/-- Whether a line has an access of the core in flight that the given test names. -/
def Core.outOn (c : Core) (l : Line) (p : OutAccess → Bool) : Bool := c.outs.any (fun o => o.host == l.host && o.line == l.n && p o)

/-- Whether data of a line is on its way to the core. -/
def Core.readOn (c : Core) (l : Line) : Bool :=
  c.loads.any (fun x => x.waiting.any (fun (y : Nat × Bool × Nat) => y.2.1 == l.host && y.2.2 / 128 == l.n))
    || c.prefetches.any (fun x => x.host == l.host && x.line == l.n)

/-- Global addresses of the lanes of a format M word. -/
def globalLanes (c : Ctx) (w : FmtM) : List (Nat × Nat) := (c.takers w.guard w.uf).map (fun l => (l, mAddr64 c.grp w l))

/-- The bytes a load finds at once: in a doorbell register (R336), or in the L1 (R236). -/
def Dev.loadNow (d : Dev) (co : Core) (hit : Bool) (n : Nat) (x : Xl) : Option Nat :=
  match x with
  | .bell block off => some (if n = 8 then d.bellRead (bellQueue block off) (bellReg off) else 0)
  | _ => match x.line with
    | none => none
    | some l =>
      if hit then (co.l1Hit l.host l.n (accessSectors (x.pa % 128) n)).map (fun data => lineBytes data (x.pa % 128) n)
      else none

/-- LD.GLOBAL (R236): lanes whose line the L1 holds are served at once, the others wait for their lines. -/
def doLdGlobal (g : GroupRef) (w : FmtM) (d : Dev) : Dev :=
  d.issueGen g (fun c => mUses c.grp.nv w 2 true true (loadSem w)) true (fun c =>
    let n := widthBytes w.width
    let next := some (c.path.pc + insLen w.lf)
    match d.places c.part c.run.fn false true n (globalLanes c w) with
    | .fault => d.addressFault c
    | .wait d1 => { dev := d1, went := false }
    | .ok d1 ts =>
      let co := d1.core c.coreKey
      let hit := decide (w.scope.toNat ≤ 1)
      let lanes := c.accessLanes w.guard w.uf
      let ls := linesOf n ts
      let now := ts.filterMap (fun t => (d1.loadNow co hit n t.2).map (fun v => (t.1, v)))
      let later := ts.filter (fun t => (d1.loadNow co hit n t.2).isNone)
      let miss := linesOf n later
      if d1.mustWait c lanes false w.sem.toNat w.scope.toNat
          || ls.any (fun x => co.loads.any (fun l => l.gkey == c.key && l.waiting.any (fun (y : Nat × Bool × Nat) => y.2.1 == x.1.host && y.2.2 / 128 == x.1.n)))
          || miss.any (fun x => co.outOn x.1 (fun _ => true)) then { dev := d1, went := false }
      else
        let grp := now.foldl (fun (h : Group) x => writeLoaded h w.uf w.d.toNat x.1 w.width.toNat x.2) c.grp
        let co1 := ls.foldl (fun (k : Core) x => if hit && !miss.any (fun y => y.1 == x.1) then k.l1Touch x.1.host x.1.n else k) co
        let d2 := (d1.setGroup c.key grp).setCore c.coreKey co1
        if later.isEmpty then
          { dev := if ts.isEmpty then d2 else d2.acquire c.coreKey w.sem.toNat w.scope.toNat, slots := lineSlots w.uf ls, next := next }
        else
          let (id, d3) := d2.takeId
          let pl : PendLoad := { id := id, gkey := c.key, lanes := lanes, uni := w.uf, dst := w.d.toNat, width := w.width.toNat
                                 sem := w.sem.toNat, scope := w.scope.toNat, hint := w.hint.toNat, fill := true
                                 waiting := later.map (fun t => (t.1, (match t.2 with | .host _ => true | _ => false), t.2.pa)) }
          let d4 := d3.setCore c.coreKey { d3.core c.coreKey with loads := (d3.core c.coreKey).loads ++ [pl] }
          let d5 := miss.foldl (fun (e : Dev) x => e.readLine c.part c.die x.1 x.2 w.hint.toNat (.load c.die c.core id) c.run.acct) d4
          { dev := d5, slots := lineSlots w.uf ls, next := next })

def execLdGlobal (g : GroupRef) (w : FmtM) (s : State) : Host.Outcome State Fault Refusal := done s (doLdGlobal g w s.dev)

/-- The bytes that a store's lanes give a line: mask and data, the highest lane winning (R154). -/
def storeLine (l : Line) (n : Nat) (data : Nat → Nat) (ts : List (Nat × Xl)) : BitVec 128 × LineData :=
  ts.foldl (fun (r : BitVec 128 × LineData) t =>
    if t.2.line = some l then
      (r.1 ||| byteMask (t.2.pa % 128) n, BitVec.ofNat 1024 (putBytes r.2.toNat (t.2.pa % 128) n (data t.1)))
    else r) (0, 0)

/-- Sends one message of an access to the home of its line and records that it is in flight. -/
def Dev.sendAccess (d : Dev) (c : Ctx) (lanes : Lanes) (l : Line) (kind : OutKind) (sem scope : Nat)
    (dst : Option (Bool × Nat × Nat)) (body : MsgBody) : Dev :=
  match d.homeSlice c.part l with
  | none => d
  | some h =>
    let (id, d1) := d.takeId
    let o : OutAccess := { id := id, kind := kind, gkey := c.key, q := c.grp.q, i := c.grp.i, lanes := lanes, host := l.host
                           line := l.n, sem := sem, scope := scope, dst := dst, sent := d.coh }
    let co := d1.core c.coreKey
    (d1.setCore c.coreKey { co with outs := co.outs ++ [o] }).send
      { src := .core c.die c.core, dst := .slice h, rid := id, acct := c.run.acct, body := body }

/-- Whether a line has a read or an atomic of the core in flight: a write of it waits. -/
def Core.writeBlocked (c : Core) (l : Line) : Bool := c.readOn l || c.outOn l (fun o => o.kind == .atomic)

/-- ST.GLOBAL (R236, R238): a valid L1 copy is updated and the line's home is sent the bytes. A naturally aligned
8-byte store to a doorbell page writes its register; other stores there are ignored (R336). -/
def doStGlobal (g : GroupRef) (w : FmtM) (d : Dev) : Dev :=
  d.issueGen g (fun c => mUses c.grp.nv w 2 true false (storeSem w)) true (fun c =>
    let n := widthBytes w.width
    match d.places c.part c.run.fn true true n (globalLanes c w) with
    | .fault => d.addressFault c
    | .wait d1 => { dev := d1, went := false }
    | .ok d1 ts =>
      let co := d1.core c.coreKey
      let lanes := c.accessLanes w.guard w.uf
      let ls := linesOf n ts
      if d1.mustWait c lanes true w.sem.toNat w.scope.toNat || ls.any (fun x => co.writeBlocked x.1) then { dev := d1, went := false }
      else
        let bells := ts.filter (fun t => t.2.line.isNone)
        let d2 := bells.foldl (fun (e : Dev) t =>
          match t.2 with
          | .bell block off =>
            if n = 8 && !bells.any (fun u => u.2 == t.2 && decide (u.1 > t.1)) then e.bellWrite (bellQueue block off) (bellReg off) (mData c.grp w t.1 % 2 ^ 64) else e
          | _ => e) d1
        let d3 := ls.foldl (fun (e : Dev) x =>
          let (m, data) := storeLine x.1 n (mData c.grp w) ts
          let k := e.core c.coreKey
          (e.setCore c.coreKey (k.l1Update x.1.host x.1.n m data)).sendAccess c lanes x.1 .store w.sem.toNat w.scope.toNat none
            (.wr x.1 m data w.hint.toNat)) d2
        { dev := d3, slots := lineSlots w.uf ls, next := some (c.path.pc + insLen w.lf) })

def execStGlobal (g : GroupRef) (w : FmtM) (s : State) : Host.Outcome State Fault Refusal := done s (doStGlobal g w s.dev)

/-- PREFETCH.GLOBAL (R236): each line is read at its home and filled into the L1. [DEDUCED, log 11; DEDUCED, log 16] -/
def doPrefetchGlobal (g : GroupRef) (w : FmtM) (d : Dev) : Dev :=
  d.issueGen g (fun c => mUses c.grp.nv w 2 false true (w.sem == 0 && w.scope == 0)) true (fun c =>
    match d.places c.part c.run.fn false false 1 (globalLanes c w) with
    | .fault => d.addressFault c
    | .wait d1 => { dev := d1, went := false }
    | .ok d1 ts =>
      let co := d1.core c.coreKey
      let ls := (linesOf 1 ts).filter (fun x => (co.l1Hit x.1.host x.1.n 15#4).isNone && !co.readOn x.1)
      if ls.any (fun x => co.outOn x.1 (fun _ => true)) then { dev := d1, went := false }
      else
        let d2 := ls.foldl (fun (e : Dev) x =>
          let (id, e1) := e.takeId
          let k := e1.core c.coreKey
          (e1.setCore c.coreKey { k with prefetches := k.prefetches ++ [{ id := id, host := x.1.host, line := x.1.n, fill := true }] }).readLine
            c.part c.die x.1 15#4 w.hint.toNat (.prefetch c.die c.core id) c.run.acct) d1
        { dev := d2, next := some (c.path.pc + insLen w.lf) })

def execPrefetchGlobal (g : GroupRef) (w : FmtM) (s : State) : Host.Outcome State Fault Refusal := done s (doPrefetchGlobal g w s.dev)

/-! ## Constant space (R153, R239) -/

/-- A line read through a read-only cache of a core: it hits when the line records the task's release number or a
later one, else it is read from its home and records the highest number the core has learned (R239). -/
def Dev.roRead (d : Dev) (p ck release : Nat) (l : Line) : Dev × Option LineData :=
  let co := d.core ck
  let key := l.n * 2 + (if l.host then 1 else 0)
  match co.ro.find? (fun x => x.addr == key && decide (x.release ≥ release)) with
  | some x => (d, some x.data)
  | none =>
    match d.peekLine p l with
    | none => (d.claim p l false, none)
    | some data =>
      (d.setCore ck { co with ro := co.ro.filter (fun x => x.addr != key) ++ [{ addr := key, data := data, release := co.release }] }, some data)

/-- What a constant load finds: a fault, a line that must be waited for, or the bytes. -/
inductive ConstRead where
  | fault
  | wait (d : Dev)
  | ok (d : Dev) (v : Nat)

/-- `n` bytes at a constant offset. -/
def Dev.constRead (d : Dev) (c : Ctx) (a n : Nat) : ConstRead :=
  if a % n ≠ 0 ∨ a ≥ 0x10000 then .fault
  else if a < 0x1000 then .ok d (bytesAt c.run.cblock a n)
  else if a - 0x1000 + n > c.run.csegLen then .fault
  else match d.translate c.part c.run.fn (c.run.csegVa + (a - 0x1000)) false with
    | (_, .fail) => .fault
    | (d1, .wait) => .wait d1
    | (d1, x) => match x.line with
      | none => .fault
      | some l => match d1.roRead c.part c.coreKey c.run.release l with
        | (d2, none) => .wait d2
        | (d2, some data) => .ok d2 (lineBytes data (x.pa % 128) n)

/-- The constant reads of an instruction's lanes. -/
def Dev.constReads (d : Dev) (c : Ctx) (n : Nat) : List (Nat × Nat) → Dev × Bool × Option (List (Nat × Nat))
  | [] => (d, true, some [])
  | (lane, a) :: rest =>
    match d.constRead c a n with
    | .fault => (d, false, none)
    | .wait d1 => (d1, true, none)
    | .ok d1 v => match Dev.constReads d1 c n rest with
      | (d2, ok, some l) => (d2, ok, some ((lane, v) :: l))
      | r => r

/-- LD.CONST. -/
def doLdConst (g : GroupRef) (w : FmtM) (d : Dev) : Dev :=
  d.issueGen g (fun c => mUses c.grp.nv w 2 true true (w.sem == 0 && w.scope == 0 && w.hint == 0)) true (fun c =>
    let n := widthBytes w.width
    let ls := globalLanes c w
    match d.constReads c n ls with
    | (_, false, _) => d.addressFault c
    | (d1, true, none) => { dev := d1, went := false }
    | (d1, true, some vs) =>
      let words := (ls.flatMap (fun x => (List.range ((n + 3) / 4)).map (fun k => x.2 / 4 + k))).eraseDups
      { dev := d1.setGroup c.key (vs.foldl (fun (h : Group) x => writeLoaded h w.uf w.d.toNat x.1 w.width.toNat x.2) c.grp),
        slots := if w.uf || w.ka then 1 else max 1 words.length, next := some (c.path.pc + insLen w.lf) })

def execLdConst (g : GroupRef) (w : FmtM) (s : State) : Host.Outcome State Fault Refusal := done s (doLdConst g w s.dev)

/-! ## Atomics (R142, R157, R158) -/

def atomType (w : FmtA) : Nat := w.mod.toNat % 8
def atomSem (w : FmtA) : Nat := w.mod.toNat / 8 % 4
def atomScope (w : FmtA) : Nat := w.mod.toNat / 32 % 8
def atomStream (w : FmtA) : Bool := w.mod.getLsbD 8
def atomLocal (w : FmtA) : Bool := w.mod.getLsbD 9
def atomNoret (w : FmtA) : Bool := w.mod.getLsbD 10

/-- Registers of the operands of an atomic type. -/
def atomRegs (w : FmtA) : Nat := atomWidth (atomType w) / 4

def AtomOp.isLogic : AtomOp → Bool
  | .and | .or | .xor => true
  | _ => false

def AtomOp.returns : AtomOp → Bool
  | .exch | .cas => true
  | _ => false

/-- Operands and legality of an atomic (R142, R143, R146). -/
def atomSpec (op : AtomOp) (w : FmtA) : ASpec :=
  let n := atomRegs w
  { d := if atomNoret w then .unused else .reg n, a := .reg (if atomLocal w then 1 else 2), b := .reg n
    c := if op = .cas then .reg n else .unused
    modOk := decide (atomScope w < 5) && !(op.returns && atomNoret w) && !(op.isLogic && decide (atomType w ≥ 4))
    long := true, uni := true }

/-- The TI column of R146 for an atomic. -/
def atomCovered (op : AtomOp) (w : FmtA) : Bool := atomNoret w && (op != .add || decide (atomType w < 4))

/-- The lanes of an atomic with their addresses. -/
def atomAddrs (c : Ctx) (w : FmtA) : List (Nat × Nat) :=
  (c.takers w.guard w.uf).map (fun l => (l, srcA c.grp w l (if atomLocal w then 1 else 2)))

/-- Lane operands at a byte offset. -/
def atomOperand (c : Ctx) (op : AtomOp) (w : FmtA) (lane off : Nat) : AtomLane :=
  let n := atomRegs w
  { lane := lane, off := off, b := BitVec.ofNat 64 (srcB c.grp w lane n), c := if op = .cas then BitVec.ofNat 64 (srcC c.grp w lane n) else 0 }

/-- A local atomic, performed by the core in ascending lane order (R157, R158). -/
def Dev.atomLocalRun (d : Dev) (c : Ctx) (op : AtomOp) (w : FmtA) (ls : List (Nat × Nat)) : Dev :=
  let n := atomWidth (atomType w)
  let r := ls.foldl (fun (r : Dev × Group) x =>
    match d.localPlace c x.2 n with
    | none => r
    | some p =>
      let old := r.1.readLoc p n
      let o := atomOperand c op w x.1 0
      (r.1.writeLoc p n (atomApply op (atomType w) old o.b.toNat o.c.toNat),
        if atomNoret w then r.2 else writeD r.2 w x.1 (n / 4) old)) (d, c.grp)
  r.1.setGroup c.key r.2

/-- An atomic instruction (R157, R236). -/
def doAtom (op : AtomOp) (g : GroupRef) (w : FmtA) (d : Dev) : Dev :=
  d.issueGen g (fun c => aUses c.grp.nv w (atomSpec op w)) (atomCovered op w) (fun c =>
    let n := atomWidth (atomType w)
    let ls := atomAddrs c w
    let lanes := c.accessLanes w.guard w.uf
    let next := some (c.path.pc + insLen w.lf)
    if atomLocal w then
      if !d.localOk c ls n then d.addressFault c
      else if d.mustWait c lanes true (atomSem w) (atomScope w) || d.localPending c.key then { dev := d, went := false }
      else
        let d1 := d.atomLocalRun c op w ls
        { dev := if ls.isEmpty then d1 else d1.acquire c.coreKey (atomSem w) (atomScope w),
          slots := if w.uf then 1 else max 1 (ls.map (fun x => x.2 / 128)).eraseDups.length, next := next }
    else
      match d.places c.part c.run.fn true false n ls with
      | .fault => d.addressFault c
      | .wait d1 => { dev := d1, went := false }
      | .ok d1 ts =>
        let co := d1.core c.coreKey
        let lines := linesOf n ts
        if d1.mustWait c lanes true (atomSem w) (atomScope w) || lines.any (fun x => co.readOn x.1 || co.outOn x.1 (fun _ => true)) then
          { dev := d1, went := false }
        else
          let dst := if atomNoret w then none else some (w.uf, w.d.toNat, n / 4)
          let d2 := lines.foldl (fun (e : Dev) x =>
            let k := e.core c.coreKey
            let mine := ts.filter (fun t => t.2.line == some x.1)
            let who := if w.uf then lanes else mine.foldl (fun (m : Lanes) t => m ||| laneBit t.1) 0
            (e.setCore c.coreKey (k.l1Drop x.1.host x.1.n)).sendAccess c who x.1 .atomic (atomSem w) (atomScope w) dst
              (.atm x.1 op (atomType w) (atomStream w) (atomNoret w) (mine.map (fun t => atomOperand c op w t.1 (t.2.pa % 128))))) d1
          { dev := d2, slots := lineSlots w.uf lines, next := next })

/-- ATOM.ADD (R157). -/
def doAtomAdd (g : GroupRef) (w : FmtA) (d : Dev) : Dev := doAtom .add g w d
def execAtomAdd (g : GroupRef) (w : FmtA) (s : State) : Host.Outcome State Fault Refusal := done s (doAtomAdd g w s.dev)
/-- ATOM.MIN (R157). -/
def doAtomMin (g : GroupRef) (w : FmtA) (d : Dev) : Dev := doAtom .min g w d
def execAtomMin (g : GroupRef) (w : FmtA) (s : State) : Host.Outcome State Fault Refusal := done s (doAtomMin g w s.dev)
/-- ATOM.MAX (R157). -/
def doAtomMax (g : GroupRef) (w : FmtA) (d : Dev) : Dev := doAtom .max g w d
def execAtomMax (g : GroupRef) (w : FmtA) (s : State) : Host.Outcome State Fault Refusal := done s (doAtomMax g w s.dev)
/-- ATOM.AND (R157). -/
def doAtomAnd (g : GroupRef) (w : FmtA) (d : Dev) : Dev := doAtom .and g w d
def execAtomAnd (g : GroupRef) (w : FmtA) (s : State) : Host.Outcome State Fault Refusal := done s (doAtomAnd g w s.dev)
/-- ATOM.OR (R157). -/
def doAtomOr (g : GroupRef) (w : FmtA) (d : Dev) : Dev := doAtom .or g w d
def execAtomOr (g : GroupRef) (w : FmtA) (s : State) : Host.Outcome State Fault Refusal := done s (doAtomOr g w s.dev)
/-- ATOM.XOR (R157). -/
def doAtomXor (g : GroupRef) (w : FmtA) (d : Dev) : Dev := doAtom .xor g w d
def execAtomXor (g : GroupRef) (w : FmtA) (s : State) : Host.Outcome State Fault Refusal := done s (doAtomXor g w s.dev)
/-- ATOM.EXCH (R157). -/
def doAtomExch (g : GroupRef) (w : FmtA) (d : Dev) : Dev := doAtom .exch g w d
def execAtomExch (g : GroupRef) (w : FmtA) (s : State) : Host.Outcome State Fault Refusal := done s (doAtomExch g w s.dev)
/-- ATOM.CAS: writes b when the old value equals c (R157). -/
def doAtomCas (g : GroupRef) (w : FmtA) (d : Dev) : Dev := doAtom .cas g w d
def execAtomCas (g : GroupRef) (w : FmtA) (s : State) : Host.Outcome State Fault Refusal := done s (doAtomCas g w s.dev)

/-! ## Reductions (R159, R284-R287) -/

/-- The operation of a RED. -/
inductive RedOp where
  | add | min | max
  deriving DecidableEq, Repr

/-- The class of a RED type code (R142, R284). -/
def redClass (op : RedOp) (t : Nat) : RedClass :=
  match op with
  | .add => if t < 2 then .addF else if t < 4 then .addI32 else .addI64
  | .min => match t with | 0 | 1 => .minF | 2 => .minS32 | 3 => .minU32 | 4 => .minS64 | _ => .minU64
  | .max => match t with | 0 | 1 => .maxF | 2 => .maxS32 | 3 => .maxU32 | 4 => .maxS64 | _ => .maxU64

/-- Registers of a RED operand. -/
def redRegs (t : Nat) : Nat := if t ≥ 4 then 2 else 1

/-- A contributed value: BF16 widened to FP32 (R284). -/
def redValue (t v : Nat) : DWord := BitVec.ofNat 64 (if t = 1 then v % 65536 * 65536 else v)

/-- What the reduction descriptor gives: a fault, a walk to wait for, or the descriptor of the message (R285, R287). -/
inductive Descr where
  | fault
  | wait (d : Dev)
  | ok (d : Dev) (x : RedDesc)

/-- The reduction descriptor in u(c), u(c+1). -/
def Dev.descr (d : Dev) (p fn : Nat) (cls : RedClass) (u0 u1 : Nat) : Descr :=
  let count := u1 % 2 ^ 32
  if u0 ≥ 2 ^ 56 ∨ u1 ≥ 2 ^ 33 then .fault
  else if u1 / 2 ^ 32 = 0 then (if u0 = 0 then .ok d { cls := cls, count := count, fenceEn := false, fence := 0 } else .fault)
  else if u0 % 8 ≠ 0 then .fault
  else match d.translate p fn u0 true with
    | (d1, .dev pa) => .ok d1 { cls := cls, count := count, fenceEn := true, fence := pa }
    | (d1, .wait) => .wait d1
    | _ => .fault

/-- Sends one message to each line, after dropping the core's own copies (R236, R286). -/
def Dev.sendReds (d : Dev) (c : Ctx) (lanes : Lanes) (lines : List (Line × BitVec 4)) (body : Line → MsgBody) : Dev :=
  lines.foldl (fun (e : Dev) x =>
    let k := e.core c.coreKey
    (e.setCore c.coreKey (k.l1Drop x.1.host x.1.n)).sendAccess c lanes x.1 .red 0 3 none (body x.1)) d

/-- A RED instruction. -/
def doRed (op : RedOp) (g : GroupRef) (w : FmtA) (d : Dev) : Dev :=
  let t := w.mod.toNat
  let n := redRegs t
  d.issueGen g (fun c => aUses c.grp.nv w { a := .reg 2, b := .reg n, c := .upair, modOk := decide (t < 6), uni := true }) true (fun c =>
    let ls := (c.takers w.guard w.uf).map (fun l => (l, srcA c.grp w l 2))
    let cls := redClass op t
    if ls.isEmpty then { dev := d, next := some (c.path.pc + 8) }
    else match d.descr c.part c.run.fn cls (c.grp.readU w.c.toNat).toNat (c.grp.readU (w.c.toNat + 1)).toNat with
      | .fault => d.addressFault c
      | .wait d1 => { dev := d1, went := false }
      | .ok d1 desc =>
        match d1.places c.part c.run.fn true false (4 * n) ls with
        | .fault => d.addressFault c
        | .wait d2 => { dev := d2, went := false }
        | .ok d2 ts =>
          let lanes := c.accessLanes w.guard w.uf
          let lines := linesOf (4 * n) ts
          if d2.mustWait c lanes true 0 0 || lines.any (fun x => (d2.core c.coreKey).writeBlocked x.1) then { dev := d2, went := false }
          else
            { dev := d2.sendReds c lanes lines (fun l => .redc l desc
                ((ts.filter (fun y => y.2.line == some l)).map (fun y => (y.2.pa % 128 / (4 * n), redValue t (srcB c.grp w y.1 n)))) false),
              slots := lineSlots w.uf lines, next := some (c.path.pc + 8) })

/-- RED.ADD (R159). -/
def doRedAdd (g : GroupRef) (w : FmtA) (d : Dev) : Dev := doRed .add g w d
def execRedAdd (g : GroupRef) (w : FmtA) (s : State) : Host.Outcome State Fault Refusal := done s (doRedAdd g w s.dev)
/-- RED.MIN (R159). -/
def doRedMin (g : GroupRef) (w : FmtA) (d : Dev) : Dev := doRed .min g w d
def execRedMin (g : GroupRef) (w : FmtA) (s : State) : Host.Outcome State Fault Refusal := done s (doRedMin g w s.dev)
/-- RED.MAX (R159). -/
def doRedMax (g : GroupRef) (w : FmtA) (d : Dev) : Dev := doRed .max g w d
def execRedMax (g : GroupRef) (w : FmtA) (s : State) : Host.Outcome State Fault Refusal := done s (doRedMax g w s.dev)

/-- RCLOSE: one closing message to each line addressed (R286, R287, R291). -/
def doRclose (g : GroupRef) (w : FmtA) (d : Dev) : Dev :=
  d.issueGen g (fun c => aUses c.grp.nv w { a := .reg 2, modOk := w.mod == 0, uni := true }) true (fun c =>
    let ls := (c.takers w.guard w.uf).map (fun l => (l, srcA c.grp w l 2))
    match d.places c.part c.run.fn true false 1 ls with
    | .fault => d.addressFault c
    | .wait d1 => { dev := d1, went := false }
    | .ok d1 ts =>
      let lanes := c.accessLanes w.guard w.uf
      let lines := linesOf 1 ts
      if d1.mustWait c lanes true 0 0 || lines.any (fun x => (d1.core c.coreKey).writeBlocked x.1) then { dev := d1, went := false }
      else
        { dev := d1.sendReds c lanes lines (fun l => .redc l { cls := .addF, count := 0, fenceEn := false, fence := 0 } [] true),
          next := some (c.path.pc + 8) })

def execRclose (g : GroupRef) (w : FmtA) (s : State) : Host.Outcome State Fault Refusal := done s (doRclose g w s.dev)

/-! ## Fences (R160, R234, R237) -/

/-- FENCE: sem in mod [1:0], scope in [4:2]. A release waits for the earlier accesses of its lanes; an acquire for
their loads and atomics, and then increments the epoch. -/
def doFence (g : GroupRef) (w : FmtA) (d : Dev) : Dev :=
  let sem := w.mod.toNat % 4
  let scope := w.mod.toNat / 4
  d.issueGen g (fun c => aUses c.grp.nv w { modOk := decide (scope < 5) && sem != 0 }) true (fun c =>
    let lanes := c.lanes w.guard
    let next := some (c.path.pc + 8)
    if lanes = 0 then { dev := d, next := next }
    else if d.unperformed c lanes (if sem ≥ 2 then scope else 0) || d.localPending c.key then { dev := d, went := false }
    else { dev := d.acquire c.coreKey sem scope, next := next })

def execFence (g : GroupRef) (w : FmtA) (s : State) : Host.Outcome State Fault Refusal := done s (doFence g w s.dev)

end Sys2Proof.Machine
end

