-- ==== Sys2Proof/Machine/Bulk.lean ====
section
/-! DEFINITION. Bulk copies between global and local memory, their completion, and BWAIT (04 R155, R156, 07 R236). -/

namespace Sys2Proof.Machine

open Sys2Proof

/-! ## Line accesses of engines and bulk copies -/

/-- One request of an engine at a line's home for an account: the request and its bursts are metered (19 R539). -/
def Dev.engineRequest (d : Dev) (p : Nat) (l : Line) (sectors : BitVec 4) (acct : Option Nat) : Dev :=
  match d.homeSlice p l with
  | some h => (d.engineBursts p l sectors acct).meter (domBase (h / 16)) acct 1
  | none => d

/-- Reads `k` bytes of a line; none, with what brings the line started, when it cannot be read now. -/
def Dev.engineRead (d : Dev) (p : Nat) (l : Line) (off k : Nat) (acct : Option Nat) : Dev × Option Nat :=
  match d.peek p l off k with
  | none => (d.claim p l false, none)
  | some v => (d.engineRequest p l (accessSectors off k) acct, some v)

/-- Writes `k` bytes of a line; false when it cannot be written now. -/
def Dev.engineWrite (d : Dev) (p : Nat) (l : Line) (off k v : Nat) (acct : Option Nat) : Dev × Bool :=
  if d.canWrite p l then ((d.engineRequest p l (accessSectors off k) acct).poke p l off k v, true)
  else (d.claim p l true, false)

/-! ## BCOPY -/

/-- Operands of a bulk copy: all uniform (R155); an immediate address must be aligned. -/
def bcopySpec (w : FmtA) : ASpec :=
  { d := .reg 1, a := .reg 1, b := .reg 2, c := .reg 2, modOk := w.mod == 0 && (!w.ib || w.b.toNat % 16 == 0), uni := true, onlyUni := true }

/-- The pieces of a global range that lie in one 4 KiB page each: address, bytes. -/
def pagePieces : Nat → Nat → Nat → List (Nat × Nat)
  | 0, _, _ => []
  | fuel + 1, va, n => if n = 0 then [] else let k := min n (4096 - va % 4096); (va, k) :: pagePieces fuel (va + k) (n - k)

/-- Starts a bulk copy. -/
def doBcopy (toLocal : Bool) (g : GroupRef) (w : FmtA) (d : Dev) : Dev :=
  d.issueGen g (fun c => aUses c.grp.nv w (bcopySpec w)) true (fun c =>
    let next := some (c.path.pc + 8)
    match c.takers w.guard true with
    | [] => { dev := d, next := next }
    | lane :: _ =>
      let ctr := (c.grp.readU w.d.toNat).toNat % 2 ^ 32
      let loc := (c.grp.readU w.a.toNat).toNat % 2 ^ 32
      let va := srcB c.grp w lane 2
      let len := (c.grp.readU w.c.toNat).toNat
      if len % 16 ≠ 0 ∨ len < 16 ∨ len > 65536 ∨ loc % 16 ≠ 0 ∨ va % 16 ≠ 0 ∨ ctr % 8 ≠ 0 then d.addressFault c
      else match d.localPlace c loc len, d.localPlace c ctr 8 with
        | some x, some y =>
          let ps := pagePieces 18 va len
          match d.places c.part c.run.fn (!toLocal) false 1 (ps.map (fun x => (0, x.1))) with
          | .fault => d.addressFault c
          | .wait d1 => { dev := d1, went := false }
          | .ok d1 ts =>
            if d1.mustWait c c.path.mask (!toLocal) 0 0 || d1.localPending c.key then { dev := d1, went := false }
            else
              let (id, d2) := d1.takeId
              let k := d2.core c.coreKey
              let b : BulkCopy := { id := id, gkey := c.key, origin := c.key, part := c.part, acct := c.run.acct, block := x.ck * 32 + x.slot
                                    loc := x.off, toLocal := toLocal, cblock := y.ck * 32 + y.slot, counter := y.off
                                    segs := (ts.zip ps).map (fun z => ((match z.1.2 with | .host _ => true | _ => false), z.1.2.pa, z.2.2))
                                    q := c.grp.q, i := c.grp.i }
              { dev := d2.setCore c.coreKey { k with copies := k.copies ++ [b] }, next := next }
        | _, _ => d.addressFault c)

/-- BCOPY.G2L (R155). -/
def doBcopyG2l (g : GroupRef) (w : FmtA) (d : Dev) : Dev := doBcopy true g w d
def execBcopyG2l (g : GroupRef) (w : FmtA) (s : State) : Host.Outcome State Fault Refusal := done s (doBcopyG2l g w s.dev)

/-- BCOPY.L2G (R155). -/
def doBcopyL2g (g : GroupRef) (w : FmtA) (d : Dev) : Dev := doBcopy false g w d
def execBcopyL2g (g : GroupRef) (w : FmtA) (s : State) : Host.Outcome State Fault Refusal := done s (doBcopyL2g g w s.dev)

/-- The place of a block given as core key · 32 + slot. -/
def blockPlace (b off : Nat) : LocPlace := ⟨b / 32, b % 32, off⟩

/-- One piece of a copy, within one line; none when it must wait. -/
def Dev.copyPiece (d : Dev) (ck : Nat) (b : BulkCopy) (host : Bool) (pa k : Nat) : Dev × Bool :=
  let l : Line := ⟨host, pa / 128⟩
  let co := d.core ck
  if co.outOn l (fun _ => true) || (!b.toLocal && co.readOn l) then (d, false)
  else if b.toLocal then
    match d.engineRead b.part l (pa % 128) k b.acct with
    | (d1, none) => (d1, false)
    | (d1, some v) =>
      let c1 := d1.core ck
      let m := sectorMask (accessSectors (pa % 128) k)
      let d2 := match d1.peekLine b.part l with
        | some data => d1.setCore ck (c1.l1Update host l.n m data)
        | none => d1
      (d2.writeLoc (blockPlace b.block b.loc) k v, true)
  else
    let v := d.readLoc (blockPlace b.block b.loc) k
    match d.engineWrite b.part l (pa % 128) k v b.acct with
    | (d1, false) => (d1, false)
    | (d1, true) =>
      (d1.setCore ck ((d1.core ck).l1Update host l.n (byteMask (pa % 128) k) (BitVec.ofNat 1024 (v * 2 ^ (8 * (pa % 128))))), true)

/-- Copies piece by piece until the end or a line that is not there; the copy as it then stands. -/
def Dev.copyRun (d : Dev) (ck : Nat) (b : BulkCopy) : Nat → Dev × BulkCopy
  | 0 => (d, b)
  | fuel + 1 =>
    match b.segs with
    | [] => (d, b)
    | (host, pa, n) :: rest =>
      let k := min n (128 - pa % 128)
      match d.copyPiece ck b host pa k with
      | (d1, false) => (d1, b)
      | (d1, true) =>
        Dev.copyRun d1 ck { b with loc := b.loc + k, segs := if n = k then rest else (host, pa + k, n - k) :: rest } fuel

/-- BCOPY_COMPLETE: the oldest copy of the group slot is performed; when every byte is written the core adds 1 to its
counter (R155), and an ended block's memory may be free (R156). -/
def doBcopyComplete (die core sub slot : Nat) (d : Dev) : Dev :=
  let ck := coreKey die core
  let co := d.core ck
  match co.copies.find? (fun b => b.origin == groupKey die core sub slot) with
  | none => d
  | some b =>
    if d.partRuns b.part && d.coresIssue then
      match d.copyRun ck b 600 with
      | (d1, b1) =>
        let c1 := d1.core ck
        match b1.segs with
        | _ :: _ => d1.setCore ck { c1 with copies := c1.copies.map (fun (x : BulkCopy) => if x.id = b.id then b1 else x) }
        | [] =>
          let d2 := d1.setCore ck { c1 with copies := c1.copies.filter (fun x => x.id != b.id) }
          let y := blockPlace b.cblock b.counter
          let d3 := d2.writeLoc y 8 ((d2.readLoc y 8 + 1) % 2 ^ 64)
          [b.block, b.cblock].foldl (fun (e : Dev) z => match (e.core (z / 32)).block (z % 32) with
            | some bl => (e.freeKilled (z / 32) (z % 32)).freeCluster (z / 32 / 256) bl
            | none => e) d3
    else d

def execBcopyComplete (die core sub slot : Nat) (s : State) : Host.Outcome State Fault Refusal :=
  done s (doBcopyComplete die core sub slot s.dev)

/-- BWAIT: the path waits until the 8-byte counter at a is at least b; then an acquire at BLOCK scope (R156, R231). -/
def doBwait (g : GroupRef) (w : FmtA) (d : Dev) : Dev :=
  d.issueGen g (fun c => aUses c.grp.nv w { a := .reg 1, b := .reg 2, modOk := w.mod == 0, long := true, uni := true, onlyUni := true }) true (fun c =>
    let next := some (c.path.pc + insLen w.lf)
    match c.takers w.guard true with
    | [] => { dev := d, next := next }
    | lane :: _ =>
      let off := (c.grp.readU w.a.toNat).toNat % 2 ^ 32
      match (if off % 8 = 0 then d.localPlace c off 8 else none) with
      | none => d.addressFault c
      | some x => if d.readLoc x 8 < srcB c.grp w lane 2 then { dev := d, went := false } else { dev := d, next := next })

def execBwait (g : GroupRef) (w : FmtA) (s : State) : Host.Outcome State Fault Refusal := done s (doBwait g w s.dev)

end Sys2Proof.Machine
end

