-- ==== Sys2Proof/Machine/Ecc.lean ====
section
/-! DEFINITION. The Reed-Solomon code of a memory burst (10 R310, R311) and the decode of a channel address (R309). -/

namespace Sys2Proof.Machine

open Sys2Proof

/-- Doubling in GF(2^8) with x^8 + x^4 + x^3 + x^2 + 1. -/
def gfDouble (a : Nat) : Nat := if a ≥ 128 then (2 * a) ^^^ 0x11D else 2 * a

/-- The product in GF(2^8), from bit `n - 1` of b down. -/
def gfMulFrom (a b : Nat) : Nat → Nat → Nat
  | 0, acc => acc
  | n + 1, acc =>
    let acc := gfDouble acc
    gfMulFrom a b n (if b.testBit n then acc ^^^ a else acc)

def gfMul (a b : Nat) : Nat := gfMulFrom a b 8 0

/-- α^n, α = 2. -/
def gfPow : Nat → Nat
  | 0 => 1
  | n + 1 => gfDouble (gfPow n)

/-- g(x) = (x + α⁰)(x + α¹)(x + α²)(x + α³) without its leading 1: coefficients of x³, x², x, 1. -/
def eccGen : List Nat :=
  let mul := fun (p : List Nat) (r : Nat) => (p ++ [0]).zipWith (· ^^^ ·) (0 :: p.map (gfMul r))
  ((List.range 4).foldl (fun p k => mul p (gfPow k)) [1]).tail

/-- The check symbols 32-35 of the data symbols 0-31: the remainder of d(x) · x⁴ by g(x) (R310). -/
def eccCheck (sector : List Nat) : List Nat :=
  sector.foldl (fun (r : List Nat) s =>
    let f := s ^^^ r.headD 0
    (r.tail ++ [0]).zipWith (· ^^^ ·) (eccGen.map (gfMul f))) [0, 0, 0, 0]

/-- The codeword of a sector. -/
def eccEncode (sector : List Nat) : List Nat := sector ++ eccCheck sector

/-- The syndrome c(α^i). -/
def eccSyndrome (cw : List Nat) (i : Nat) : Nat := cw.foldl (fun acc s => gfMul acc (gfPow i) ^^^ s) 0

/-- What the decoder finds: the codeword as it is, one symbol corrected, or uncorrectable (R311). -/
inductive EccOut where
  | clean
  | corrected (symbol : Nat) (cw : List Nat)
  | bad
  deriving DecidableEq, Repr

/-- Decoding by syndromes: one error of value e at symbol j has syndromes e · α^(i(35 - j)). -/
def eccDecode (cw : List Nat) : EccOut :=
  let s := (List.range 4).map (eccSyndrome cw)
  if s.all (· == 0) then .clean
  else
    let e := s.headD 0
    match (List.range 36).find? (fun j =>
        let x := gfPow (35 - j)
        e != 0 && s == [e, gfMul e x, gfMul (gfMul e x) x, gfMul (gfMul (gfMul e x) x) x]) with
    | some j => .corrected j (cw.set j ((cw.getD j 0) ^^^ e))
    | none => .bad

/-- What a channel read delivers for one sector. -/
inductive SectorRead where
  | clean
  | corrected (data : BitVec 256)
  | bad (mask : BitVec 36)
  deriving DecidableEq, Repr

/-- The read of one sector whose burst has the given symbol errors (R311); `n` is a free value's number. [DEDUCED, log 21; DESIGN CHOICE, log 22] -/
def readSector (n : Nat) (data : Nat) (errs : List (Nat × Nat)) : SectorRead :=
  let bad := errs.filter (fun e => e.1 < 36 && e.2 % 256 != 0)
  let syms := (bad.map (fun e => e.1)).eraseDups
  if syms.length ≥ 3 then
    match Config.manyErrors n with
    | some x => .corrected x
    | none => .bad (Config.manyMask n)
  else
    let cw := (List.range 36).zipWith (fun j s => bad.foldl (fun v e => if e.1 = j then v ^^^ (e.2 % 256) else v) s)
      (eccEncode ((toBytes data 32).map BitVec.toNat))
    match eccDecode cw with
    | .clean => .clean
    | .corrected _ c => .corrected (BitVec.ofNat 256 (ofBytes ((c.take 32).map (BitVec.ofNat 8))))
    | .bad => .bad (if Config.twoLocated n then BitVec.ofNat 36 (syms.foldl (fun m j => m ||| 2 ^ j) 0) else 0)

/-! ## Address decode (R309) -/

structure CaFields where
  sc   : Nat
  col  : Nat
  bank : Nat
  row  : Nat
  deriving DecidableEq, Repr

def caFields (ca : Nat) : CaFields :=
  let row := ca / 2 ^ 16 % 2 ^ 15
  { sc := ca / 32 % 2, col := ca / 2 ^ 12 % 16 * 4 + ca / 64 % 4, bank := (ca / 256 % 16) ^^^ (row % 16), row := row }

end Sys2Proof.Machine
end

