-- ==== Sys2Proof/Machine/Protocol.lean ====
section
/-! DEFINITION. The arrival of coherence messages, of channel data and of the answers of units; the timers of the
protocol (08 R258-R270, R280, 09 R295, R300). -/

namespace Sys2Proof.Machine

open Sys2Proof

/-- Takes the oldest message of a channel whose destination is a slice of a running partition, when it is of the kind
`want` (R259); `f` acts on it with the partition and slice. [DEDUCED, log 6] -/
def Dev.recvSlice (d : Dev) (src dst : UnitId) (vc : Nat) (f : Dev → Nat → Nat → Msg → Option Dev) : Dev :=
  match dst with
  | .slice s =>
    match d.partOfSlice s, takeFirst src dst vc d.net with
    | some p, some (m, rest) =>
      if d.partRuns p then (f { d with net := rest } p s m).getD d else d
    | _, _ => d
  | _ => d

/-- RD_S arrives (R267). -/
def execRdS (src dst : UnitId) (s : State) : Host.Outcome State Fault Refusal :=
  done s (s.dev.recvSlice src dst 0 (fun d p n m => match m.body with
    | .rdS l secs hint => some (d.arriveMsg p n m l (.rdS secs hint))
    | _ => none))

/-- RD_O arrives (R267). -/
def execRdO (src dst : UnitId) (s : State) : Host.Outcome State Fault Refusal :=
  done s (s.dev.recvSlice src dst 0 (fun d p n m => match m.body with
    | .rdO l secs hint => some (d.arriveMsg p n m l (.rdO secs hint))
    | _ => none))

/-- WR arrives (R265). -/
def execWr (src dst : UnitId) (s : State) : Host.Outcome State Fault Refusal :=
  done s (s.dev.recvSlice src dst 2 (fun d p n m => match m.body with
    | .wr l mask data hint => some (d.arriveMsg p n m l (.wr mask data hint))
    | _ => none))

/-- ATM arrives (R266). -/
def execAtm (src dst : UnitId) (s : State) : Host.Outcome State Fault Refusal :=
  done s (s.dev.recvSlice src dst 0 (fun d p n m => match m.body with
    | .atm l op t stream noret ls => some (d.arriveMsg p n m l (.atm op t stream noret ls))
    | _ => none))

/-- REDC arrives (R289). -/
def execRedc (src dst : UnitId) (s : State) : Host.Outcome State Fault Refusal :=
  done s (s.dev.recvSlice src dst 2 (fun d p n m => match m.body with
    | .redc l desc elems close => some (d.arriveMsg p n m l (.redc desc elems close))
    | _ => none))

/-- The home slice a message came from. -/
def sliceOf : UnitId → Nat
  | .slice n => n
  | _ => 0

/-- FILL arrives at a near slice (R264). -/
def execFill (src dst : UnitId) (s : State) : Host.Outcome State Fault Refusal :=
  done s (s.dev.recvSlice src dst 2 (fun d p n m => match m.body with
    | .fill l valid data replica => some (d.fillArrives p n (sliceOf src) l valid data replica)
    | _ => none))

/-- INV arrives at a near slice (R269). -/
def execInv (src dst : UnitId) (s : State) : Host.Outcome State Fault Refusal :=
  done s (s.dev.recvSlice src dst 0 (fun d p n m => match m.body with
    | .inv l => some (d.invArrives p n src l)
    | _ => none))

/-- Clears sharers bits of a line's home way. -/
def Dev.clearSharer (d : Dev) (p s : Nat) (l : Line) (t : Nat) : Dev :=
  match d.place p l with
  | none => d
  | some (_, set) =>
    let x := d.slice s
    match x.findWay set (d.homeWays p) l with
    | none => d
    | some (k, w) => d.setSlice s (x.setWay k { w with sharers := w.sharers &&& ~~~(1#8 <<< t) })

/-- INV_ACK arrives at the home (R265 step 4). -/
def execInvAck (src dst : UnitId) (s : State) : Host.Outcome State Fault Refusal :=
  done s (s.dev.recvSlice src dst 1 (fun d p n m => match m.body with
    | .invAck l =>
      let t := sliceOf src / 16
      let d1 := d.clearSharer p n l t
      match (d1.slice n).awaitOf l with
      | some a => some (d1.settleAwait p n { a with inv := a.inv &&& ~~~(1#8 <<< t) })
      | none => some d1
    | _ => none))

/-- EVN arrives at the home (R267). -/
def execEvn (src dst : UnitId) (s : State) : Host.Outcome State Fault Refusal :=
  done s (s.dev.recvSlice src dst 0 (fun d p n m => match m.body with
    | .evn l => some (d.clearSharer p n l (sliceOf src / 16))
    | _ => none))

/-- Takes the oldest message of a channel to a core of a running partition. -/
def Dev.recvCore (d : Dev) (src dst : UnitId) (vc : Nat) (f : Dev → Nat → Core → Msg → Option Dev) : Dev :=
  match dst with
  | .core die core =>
    match d.partOfStack die, takeFirst src dst vc d.net with
    | some p, some (m, rest) =>
      if d.partRuns p then (f { d with net := rest } (coreKey die core) (d.core (coreKey die core)) m).getD d else d
    | _, _ => d
  | _ => d

/-- Takes the oldest message of a channel to a copy or collective engine of a running partition. -/
def Dev.recvEngine (d : Dev) (src dst : UnitId) (vc : Nat) (f : Dev → Msg → Option Dev) : Dev :=
  match (unitStack dst).bind d.partOfStack, takeFirst src dst vc d.net with
  | some p, some (m, rest) => if d.partRuns p then (f { d with net := rest } m).getD d else d
  | _, _ => d

/-- Whether a unit is an engine. -/
def isEngine : UnitId → Bool
  | .copyEngine _ | .collEngine _ => true
  | _ => false

/-- ACK arrives at the writer: the access has been performed (R238). -/
def execAck (src dst : UnitId) (s : State) : Host.Outcome State Fault Refusal :=
  if isEngine dst then done s (s.dev.recvEngine src dst 1 (fun d m => match m.body with
    | .ack _ => some { d with engOuts := d.engOuts.filter (fun o => !(o.unit == dst && o.id == m.rid)) }
    | _ => none))
  else done s (s.dev.recvCore src dst 1 (fun d k co m => match m.body with
    | .ack _ => some (d.setCore k { co with outs := co.outs.filter (fun o => o.id != m.rid) })
    | _ => none))

/-- Writes the old values of an atomic to its destination (R157). -/
def writeOld (g : Group) (dst : Bool × Nat × Nat) (old : List (Nat × DWord)) : Group :=
  old.foldl (fun (h : Group) x =>
    if dst.1 then h.writeU dst.2.1 x.2 else h.writeVs dst.2.1 x.1 dst.2.2 x.2.toNat) g

/-- ATM_RSP arrives at the requester: a core, or the slice whose close sent it (R258, R292). -/
def execAtmRsp (src dst : UnitId) (s : State) : Host.Outcome State Fault Refusal :=
  match dst with
  | .slice _ => done s (s.dev.recvSlice src dst 1 (fun d _ n m => match m.body with
      | .atmRsp _ _ => let x := d.slice n; some (d.setSlice n { x with fences := x.fences.filter (fun f => f.1 != m.rid) })
      | _ => none))
  | _ => done s (s.dev.recvCore src dst 1 (fun d k co m => match m.body with
      | .atmRsp _ old =>
        match co.outs.find? (fun o => o.id == m.rid) with
        | none => some d
        | some o =>
          let d1 := match o.dst, d.group o.gkey with
            | some r, some g => d.setGroup o.gkey (writeOld g r old)
            | _, _ => d
          let co1 := { co with outs := co.outs.filter (fun x => x.id != m.rid) }
          some (d1.setCore k (if bumps o.sem o.scope then co1.bumpEpoch else co1))
      | _ => none))

/-- HELD arrives: the requester's timer for that request stops (R295). -/
def execHeld (src dst : UnitId) (s : State) : Host.Outcome State Fault Refusal :=
  match dst with
  | .slice _ => done s (s.dev.recvSlice src dst 1 (fun d _ n m => match m.body with
      | .held l =>
        let x := d.slice n
        some (d.setSlice n (if m.rid = 0 then
            { x with miss := x.miss.map (fun e => if e.line = l then { e with held := true } else e) }
          else { x with fences := x.fences.map (fun f => if f.1 = m.rid then (f.1, f.2.1, f.2.2.1, true) else f) }))
      | _ => none))
  | .copyEngine _ | .collEngine _ => done s (s.dev.recvEngine src dst 1 (fun d m => match m.body with
      | .held _ => some { d with engOuts := d.engOuts.map (fun o => if o.unit == dst && o.id == m.rid then { o with held := true } else o) }
      | _ => none))
  | _ => done s (s.dev.recvCore src dst 1 (fun d k co m => match m.body with
      | .held _ => some (d.setCore k { co with outs := co.outs.map (fun o => if o.id = m.rid then { o with held := true } else o) })
      | _ => none))

/-- Whether the request has an answer that a HELD may precede: not the host's. -/
def HomeKind.fromHost : HomeKind → Bool
  | .hostRd .. | .hostWr .. | .snoop _ => true
  | _ => false

/-- HOLD_NOTICE_TIMER: a request that an open line has held, or a spill wait has kept, for 100 µs is announced to its
requester (R295, R300). -/
def execHoldNoticeTimer (slice idx : Nat) (s : State) : Host.Outcome State Fault Refusal :=
  let d := s.dev
  let x := d.slice slice
  match x.waitq[idx]? with
  | none => done s d
  | some r =>
    let red := match r.kind with | .redc .. => true | _ => false
    let held := x.isOpen r.line || (red && (x.awaitOf r.line).isNone)
    if held && !r.held && !r.kind.fromHost && decide (d.coh ≥ r.arrived + 100000) then
      let d1 := d.setSlice slice { x with waitq := x.waitq.set idx { r with held := true } }
      match r.kind with
      | .near .. => done s d1
      | _ => done s (d1.answer slice r (.held r.line))
    else done s d

/-- SPILL_WAIT_RESUME: requests that waited for a spill record are served when one is free (R300). -/
def execSpillWaitResume (slice : Nat) (s : State) : Host.Outcome State Fault Refusal :=
  match s.dev.partOfSlice slice with
  | some p => done s (if s.dev.partRuns p then s.dev.serve p slice else s.dev)
  | none => done s s.dev

/-! ## Channel reads (10 R310-R315) -/

/-- What a read of sectors of a line gives: the device after it, and the data when every sector is good. -/
structure ChanRead where
  dev  : Dev
  data : Option LineData
  deriving DecidableEq, Repr

/-- The symbols an armed DRAM_ECC injection puts in error in the sector at `ca` of a channel (17 R493). [DEDUCED, log 21] -/
def Dev.injectedSymbols (d : Dev) (channel ca : Nat) : List (Nat × Nat) :=
  match d.inj.armed with
  | some (t, l, m) =>
    if t.toNat % 256 = 1 ∧ t.toNat / 256 % 2 ^ 24 = channel ∧ l.toNat % 2 ^ 26 = ca / 32 then
      ((List.range 36).filter (fun j => m.getLsbD j)).map (fun j => (j, 1))
    else []
  | none => []

/-- One sector: decoded, corrected with a correction write scheduled, or reported (R311-R315). -/
def Dev.readOneSector (d : Dev) (p channel ca data : Nat) (errs : List (Nat × Nat)) : Dev × Option Nat :=
  let injs := d.injectedSymbols channel ca
  let d0 := if injs.isEmpty then d else d.fireInjection
  let (n, d1) := d0.takeFresh
  let e : LogEntry := { time := d.time, kind := 1, detector := 1, injected := !injs.isEmpty, partition := p,
                        location := channel / 96, unit := channel }
  let det := fun (mask : Nat) => BitVec.ofNat 64 (mask + (ca / 32 % 2 ^ 26) * 2 ^ 36)
  match readSector n data (errs ++ injs) with
  | .clean => (d1, some data)
  | .corrected v =>
    let c := d1.chan channel
    let d2 := d1.setChan channel { c with corrected := c.corrected + 1, lastCorr := ca / 32 % 2 ^ 26,
                                          corrections := c.corrections.filter (fun x => x != ca / 32 * 32) ++ [ca / 32 * 32] }
    let mask := ((errs ++ injs).filter (fun x => x.1 < 36 && x.2 % 256 != 0)).foldl (fun m x => m ||| 2 ^ x.1) 0
    (d2.maskedReport { e with detail := det mask }, some v.toNat)
  | .bad mask => (d1.detectedIn p 0x91 { e with detail := det mask.toNat }, none)

/-- The read of sectors of a device line, with the symbol errors of its bursts. [DEDUCED, log 21] -/
def Dev.channelRead (d : Dev) (p n : Nat) (sectors : BitVec 4) (errs : List SymErr) (acct : Option Nat) : ChanRead :=
  match d.homeOfLine n with
  | none => ⟨d, none⟩
  | some (_, h) =>
    let d0 := d.bursts h.channel (sectorCount sectors) acct
    let mem := (d.memLine n).toNat
    (List.range 4).foldl (fun (r : ChanRead) k =>
      if sectors.getLsbD k then
        match r.data with
        | none => r
        | some acc =>
          let es := (errs.filter (fun e => e.sector == k)).map (fun e => (e.symbol, e.err.toNat))
          match r.dev.readOneSector p h.channel (h.ca + 32 * k) (bytesAt mem (32 * k) 32) es with
          | (d1, some v) => ⟨d1, some (BitVec.ofNat 1024 (putBytes acc.toNat (32 * k) 32 v))⟩
          | (d1, none) => ⟨d1, none⟩
      else r) ⟨d0, some 0⟩

/-- CHANNEL_READ_DATA: the data of the read in progress for a line reaches its home slice (R263, R311). -/
def execChannelReadData (slice line : Nat) (errs : List SymErr) (s : State) : Host.Outcome State Fault Refusal :=
  let d := s.dev
  let l : Line := ⟨false, line⟩
  match d.partOfSlice slice, (d.slice slice).awaitOf l with
  | some p, some a =>
    if a.channel ≠ 0 && d.partRuns p && decide (d.stage < 4) then
      if d.inj.aim.isSome && d.inj.aim == (d.homeOfLine line).map (fun h => (9, 0x100 + h.2.channel)) then done s d.fireInjection else
      let acct := match (d.slice slice).waitq.find? (fun r => r.line == l) with | some r => r.acct | none => none
      let r := d.channelRead p line a.channel errs acct
      match r.data with
      | none => done s r.dev
      | some data =>
        let d1 := r.dev
        let d2 := match d1.place p l with
          | none => d1
          | some (_, set) =>
            let x := d1.slice slice
            match x.findWay set (d1.homeWays p) l with
            | none => d1
            | some (k, w) => d1.setSlice slice (x.setWay k
                { w with data := mergeLine (sectorMask (a.channel &&& ~~~w.valid)) w.data data, valid := w.valid ||| a.channel })
        done s (d2.settleAwait p slice { a with channel := 0 })
    else done s d
  | _, _ => done s d

/-! ## A dead agent (R280) -/

/-- The answer of a unit about a line that has been waited for longest past 1 ms: its code of R502 and the unit that
was to give it (R583). -/
def Dev.lateAnswer (d : Dev) (p : Nat) (u : UnitId) (line : Nat) : Option (Nat × Nat) :=
  let late := fun (t : Nat) => decide (d.coh ≥ t + 1000000)
  match u with
  | .core die core =>
    match (d.core (coreKey die core)).outs.find? (fun o => o.line == line && !o.held && late o.sent) with
    | some o => (d.homeSlice p ⟨o.host, line⟩).map (fun s => (1, s))
    | none => none
  | .slice n =>
    let x := d.slice n
    match x.miss.find? (fun e => e.line.n == line && !e.held && late e.sent) with
    | some e => (d.homeSlice p e.line).map (fun s => (0, s))
    | none =>
      match x.fences.find? (fun f => f.2.1.n == line && !f.2.2.2 && late f.2.2.1) with
      | some f => (d.homeSlice p f.2.1).map (fun s => (1, s))
      | none =>
        match x.awaits.find? (fun a => a.line.n == line) with
        | none => none
        | some a =>
          if a.inv ≠ 0 && late a.invAt then
            some (2, 16 * ((List.range 8).find? (fun t => a.inv.getLsbD t)).getD 0 + n % 16)
          else if a.bi.isSome && late a.biAt then some (3, 0x400)
          else if a.d2h.isSome && late a.d2hAt then some (4, 0x400)
          else if a.channel ≠ 0 && late a.chAt then
            match d.homeOfLine line with
            | some (_, h) => some (5, 0x100 + h.channel)
            | none => none
          else none
  | .copyEngine _ | .collEngine _ =>
    match d.engOuts.find? (fun o => o.unit == u && o.line == line && !o.held && late o.sent) with
    | some o => (d.homeSlice p ⟨o.host, line⟩).map (fun s => (1, s))
    | none => none
  | _ => none

/-- COHERENCE_RESPONSE_TIMEOUT: the waiting unit reports, and the partition that holds it is lost (R280). -/
def execCoherenceResponseTimeout (unit : UnitId) (line : Nat) (s : State) : Host.Outcome State Fault Refusal :=
  let d := s.dev
  match unitStack unit with
  | none => done s d
  | some st =>
    match d.partOfStack st with
    | none => done s d
    | some p =>
      if d.partRuns p then
        match d.lateAnswer p unit line with
        | none => done s d
        | some (code, who) =>
          done s (d.detectedIn p 0x93 { time := d.time, kind := 1, detector := 9, injected := d.inj.fired && d.inj.last == some (9, who), partition := p, unit := who, location := locOf 9 who,
                                        detail := BitVec.ofNat 64 (code + (line % 2 ^ 45) * 16) })
      else done s d

end Sys2Proof.Machine
end

