-- ==== Sys2Proof/Machine/Dram.lean ====
section
/-! DEFINITION. The background work of a channel: correction writes, refresh, the refresh-rate poll, patrol scrub,
recalibration (10 R313-R325). -/

namespace Sys2Proof.Machine

open Sys2Proof

/-- Whether a channel's controller works: the start is ready, the memory rails are on, no self-refresh (R320, R324). -/
def Dev.chanUp (d : Dev) (c : Nat) : Bool := decide (c < 768) && d.start.state == .ready && decide (d.stage < 4) && !d.faults.stopped

/-- The device physical address of a byte of a channel: the inverse of homing (08 R253). -/
def paOf (f ns channel ca : Nat) : Nat :=
  let stack := channel / 96
  let crow := ca / 256
  let la := (crow * 96 + (channel % 96 + 96 * 3 - fold8 crow % 96) % 96) * 256 + ca % 256
  let row := la / 4096
  let col := (stack - 2 * f + 256 - fold8 row) % ns
  f * 0x6000000000 + (row * ns + col) * 4096 + la % 4096

/-- The partition of a channel and the device line at a channel address. -/
def Dev.lineOfCa (d : Dev) (channel ca : Nat) : Option (Nat × Nat) :=
  match d.partOfStack (channel / 96) with
  | none => none
  | some p => match d.pconf p with
    | some c => some (p, paOf c.first c.stacks channel ca / 128)
    | none => none

/-- Whether a line's channel address lies in a channel. -/
def Dev.onChannel (d : Dev) (c n : Nat) : Bool := match d.homeOfLine n with | some (_, h) => h.channel == c | none => false

/-- The lines that slices are reading from a channel: its queue. -/
def Dev.chanReads (d : Dev) (c : Nat) : List Nat :=
  d.slices.flatMap (fun x => (x.2.awaits.filter (fun a => a.channel != 0 && !a.line.host && d.onChannel c a.line.n)).map (fun a => a.line.n))

/-- CORRECTION_WRITE: the oldest scheduled correction is written, check symbols and all; what memory is to hold is
unchanged (R314). [DEDUCED, log 21] -/
def doCorrectionWrite (channel : Nat) (d : Dev) : Dev :=
  let c := d.chan channel
  match c.corrections with
  | [] => d
  | _ :: rest => if d.chanUp channel && !c.unusable then (d.setChan channel { c with corrections := rest }).bursts channel 1 none else d

def execCorrectionWrite (channel : Nat) (s : State) : Host.Outcome State Fault Refusal := done s (doCorrectionWrite channel s.dev)

/-- Whether a bank of a channel is being read. -/
def Dev.bankBusy (d : Dev) (channel bank : Nat) : Bool :=
  (d.chanReads channel).any (fun n => match d.homeOfLine n with
    | some (_, h) => (caFields h.ca).bank == bank
    | none => false)

/-- REFRESH: the due bank is refreshed, or postponed while it is busy, at most 8 times; a command for another bank is a
refresh-management command, which follows the same rule and keeps the order of refresh (R318). [DEDUCED, log 23] -/
def doRefresh (channel bank : Nat) (d : Dev) : Dev :=
  let c := d.chan channel
  if !(decide (channel < 768) && d.start.state == .ready && !d.faults.stopped) || bank ≠ c.refreshBank || decide (d.stage ≥ 4) then d
  else if d.bankBusy channel bank && decide (c.postponed < 8) then d.setChan channel { c with postponed := c.postponed + 1 }
  else d.setChan channel { c with refreshBank := (c.refreshBank + 1) % 16, postponed := 0 }

def execRefresh (channel bank : Nat) (s : State) : Host.Outcome State Fault Refusal := done s (doRefresh channel bank s.dev)

/-- The multiplier code in force after a readout, never below the floor (R319, R327); 3 is an alert. -/
def refreshCode (floor readout : Nat) : Nat := if readout ≥ 3 then 3 else max floor readout

/-- REFRESH_RATE_POLL: the multiplier of the package's 32 channels; a readout above the refresh range is an alert. [DEDUCED, log 23] -/
def doRefreshRatePoll (package readout : Nat) (d : Dev) : Dev :=
  if package < 24 ∧ d.chanUp (32 * package) = true then
    (List.range 32).foldl (fun (e : Dev) k =>
      e.setChan (32 * package + k) { e.chan (32 * package + k) with refresh := refreshCode e.conf.refreshFloor readout }) d
  else d

def execRefreshRatePoll (package readout : Nat) (s : State) : Host.Outcome State Fault Refusal :=
  done s (doRefreshRatePoll package readout s.dev)

/-- The package of a channel shows an alert (R319, 16 R477). -/
def Dev.memAlert (d : Dev) (package : Nat) : Bool := (d.chan (32 * package)).refresh == 3

/-- PATROL_SCRUB_READ: the next line of the channel is read; its sectors are checked, corrected or reported, and no
data is delivered (R321). -/
def doPatrolScrubRead (channel : Nat) (errs : List SymErr) (d : Dev) : Dev :=
  let c := d.chan channel
  if d.chanUp channel && !c.unusable then
    let next := (c.scrubLine + 1) % 2 ^ 24
    let d1 := d.setChan channel { c with scrubLine := next, scrubPass := if next = 0 then (c.scrubPass + 1) % 2 ^ 32 else c.scrubPass }
    match d.lineOfCa channel (c.scrubLine * 128) with
    | none => d1
    | some (p, n) => (d1.channelRead p n 15#4 errs none).dev
  else d

def execPatrolScrubRead (channel : Nat) (errs : List SymErr) (s : State) : Host.Outcome State Fault Refusal :=
  done s (doPatrolScrubRead channel errs s.dev)

/-- Device time at which the channel's next recalibration falls due (R323). -/
def Dev.recalDue (d : Dev) (channel : Nat) : Nat := max (d.chan channel).recalAt d.recalBase + 256000000

/-- Whether another channel of the same controller cluster recalibrates now: it takes at most 2.2 µs. -/
def Dev.clusterBusy (d : Dev) (channel : Nat) : Bool :=
  (List.range 8).any (fun k =>
    let c := channel / 8 * 8 + k
    c != channel && decide ((d.chan c).recalAt > d.recalBase) && decide (d.time < (d.chan c).recalAt + 2200))

/-- A recalibration runs: its lateness is noted; one that restores no valid eye makes the channel unusable and loses the
partition with LOST_MEM_RECAL (R323, 17 R494). [DEDUCED, log 23] -/
def Dev.recalibrate (d : Dev) (channel : Nat) (ok : Bool) : Dev :=
  let c := d.chan channel
  let late := min ((d.time - d.recalDue channel) / 1000) 0xFFFF
  let d1 := d.setChan channel { c with recalAt := d.time, recalLate := max c.recalLate late, unusable := c.unusable || !ok }
  if ok then d1
  else match d.partOfStack (channel / 96) with
    | none => d1
    | some p =>
      d1.detectedIn p 0x92
        { time := d.time, kind := 1, detector := 1, partition := p, location := channel / 96, unit := channel }

/-- RECALIBRATION: from the moment it falls due it starts when the channel is idle (R323 steps 1, 2, 4). [DEDUCED, log 23] -/
def doRecalibration (channel : Nat) (ok : Bool) (d : Dev) : Dev :=
  if d.chanUp channel && !(d.chan channel).unusable && decide (d.time ≥ d.recalDue channel) && (d.chanReads channel).isEmpty
      && !d.clusterBusy channel then d.recalibrate channel ok
  else d

def execRecalibration (channel : Nat) (ok : Bool) (s : State) : Host.Outcome State Fault Refusal :=
  done s (doRecalibration channel ok s.dev)

/-- RECALIBRATION_OVERDUE: 8 ms after it has fallen due the channel is drained and the recalibration runs; the reads
already issued are delivered after it (R323 step 3). [DEDUCED, log 23] -/
def doRecalibrationOverdue (channel : Nat) (ok : Bool) (d : Dev) : Dev :=
  if d.chanUp channel && !(d.chan channel).unusable && decide (d.time ≥ d.recalDue channel + 8000000) && !d.clusterBusy channel then
    d.recalibrate channel ok
  else d

def execRecalibrationOverdue (channel : Nat) (ok : Bool) (s : State) : Host.Outcome State Fault Refusal :=
  done s (doRecalibrationOverdue channel ok s.dev)

end Sys2Proof.Machine
end

