-- ==== Sys2Proof/Machine/HostMem.lean ====
section
/-! DEFINITION. CXL.mem requests of the host, back-invalidate responses, host snoops and CXL.cache responses
(08 R267, R270, R272-R275, R281, R282, 13 R405-R410). -/

namespace Sys2Proof.Machine

open Sys2Proof

/-- The link carries flits. -/
def Dev.linkUp (d : Dev) : Bool := d.host.link == .up

/-- What becomes of a CXL.mem request: it cannot arrive (R394), it is held (R282, R412), it is completed as for a
partition that is DOWN (R392, R410), or it reaches device memory of partition p. -/
inductive MemReq where
  | gone
  | held
  | down
  | go (p pa : Nat)
  deriving DecidableEq, Repr

/-- [DEDUCED, log 29] -/
def Dev.memReq (d : Dev) (hpa : Nat) : MemReq :=
  if !d.linkUp then .gone
  else match d.dpaOf hpa with
    | none => .down
    | some (p, pa) =>
      match (d.part p).state with
      | .running => if d.stage ≥ 3 then .held else .go p pa
      | .down => .down
      | .absent => .down
      | _ => .held

/-- The host port holds a request. -/
def Dev.hold (d : Dev) (r : HostReq) : Dev := { d with host := { d.host with waiting := d.host.waiting ++ [r] } }

/-- Sends the host a message. -/
def Dev.tell (d : Dev) (m : HostMsg) : Dev := { d with toHost := d.toHost ++ [m] }

/-- A host read (R267, R409, R410). [DEDUCED, log 29] -/
def Dev.hostRead (d : Dev) (hpa : Nat) (mv : Meta) (withData : Bool) : Dev :=
  match d.memReq hpa with
  | .gone => d
  | .held => d.hold (.rd hpa mv withData)
  | .down => d.tell (if withData then .memData (hpa / 64 * 64) 0 true else .cmp (hpa / 64 * 64))
  | .go p pa =>
    let half := pa / 64 % 2
    if d.inSpill pa then d.tell (hostReply (hpa / 64 * 64) 0 0 withData)
    else
      let l : Line := ⟨false, pa / 128⟩
      match d.homeSlice p l with
      | none => d
      | some s => d.arrive p s { rid := 0, src := .host, line := l, kind := .hostRd mv half withData, arrived := d.coh }

/-- MEMRD (R267, R272). -/
def execMemrd (hpa : Nat) (mv : Meta) (s : State) : Host.Outcome State Fault Refusal := done s (s.dev.hostRead hpa mv true)

/-- MEMRDDATA: a read of data with the given MetaValue (R272). -/
def execMemrddata (hpa : Nat) (mv : Meta) (s : State) : Host.Outcome State Fault Refusal := done s (s.dev.hostRead hpa mv true)

/-- MEMINV: what a MemRd with the same MetaValue does, answered without data (R272). -/
def execMeminv (hpa : Nat) (mv : Meta) (s : State) : Host.Outcome State Fault Refusal := done s (s.dev.hostRead hpa mv false)

/-- A host write (R267, R409, R410). While the partition is being contained, a write to a line whose BISnpInv is
outstanding is applied (R281 step 3). [DEDUCED, log 29] -/
def Dev.hostWrite (d : Dev) (hpa : Nat) (data : BitVec 512) (be : BitVec 64) (mv : Meta) : Dev :=
  let half := fun (pa : Nat) => pa / 64 % 2
  let mask := fun (pa : Nat) => BitVec.ofNat 128 (be.toNat * 2 ^ (64 * half pa))
  let line := fun (pa : Nat) => BitVec.ofNat 1024 (data.toNat * 2 ^ (512 * half pa))
  match d.memReq hpa with
  | .gone => d
  | .down => d.tell (.cmp (hpa / 64 * 64))
  | .held =>
    match d.dpaOf hpa with
    | some (p, pa) =>
      if d.linkUp && (d.part p).state == .containing && d.contBi.contains (pa / 128) then
        (d.memWriteLine (pa / 128) (mask pa) (line pa)).tell (.cmp (hpa / 64 * 64))
      else d.hold (.wr hpa data be mv)
    | none => d
  | .go p pa =>
    if d.inSpill pa || d.inLog pa then
      ({ d with host := { d.host with memDiscard := (d.host.memDiscard + 1) % 2 ^ 64 } }).tell (.cmp (hpa / 64 * 64))
    else
      let l : Line := ⟨false, pa / 128⟩
      match d.homeSlice p l with
      | none => d
      | some s => d.arrive p s { rid := 0, src := .host, line := l, kind := .hostWr (mask pa) (line pa) mv, arrived := d.coh }

/-- MEMWR: all 64 bytes (R267). -/
def execMemwr (hpa : Nat) (data : BitVec 512) (mv : Meta) (s : State) : Host.Outcome State Fault Refusal :=
  done s (s.dev.hostWrite hpa data (BitVec.allOnes 64) mv)

/-- MEMWRPTL: the bytes enabled (R267). -/
def execMemwrptl (hpa : Nat) (data : BitVec 512) (be : BitVec 64) (mv : Meta) (s : State) : Host.Outcome State Fault Refusal :=
  done s (s.dev.hostWrite hpa data be mv)

/-- Sets the host bits of a device line's home way. -/
def Dev.setHostBits (d : Dev) (p s set : Nat) (l : Line) (hs he : Bool) : Dev :=
  let x := d.slice s
  match x.findWay set (d.homeWays p) l with
  | none => d
  | some (k, w) => d.setSlice s (x.setWay k { w with hostS := hs, hostE := he })

/-- Clears both host bits, whatever the state of the line (R267). -/
def Dev.hostClean (d : Dev) (hpa : Nat) : Dev :=
  match d.memReq hpa with
  | .gone => d
  | .held => d.hold (.clean hpa)
  | .down => d.tell (.cmp (hpa / 64 * 64))
  | .go p pa =>
    match d.place p ⟨false, pa / 128⟩ with
    | none => d
    | some (n, set) => (d.setHostBits p n set ⟨false, pa / 128⟩ false false).tell (.cmp (hpa / 64 * 64))

/-- MEMCLNEVCT (R267). -/
def execMemclnevct (hpa : Nat) (s : State) : Host.Outcome State Fault Refusal := done s (s.dev.hostClean hpa)

/-- The requests held are taken up again, in order; those that must still wait are held again (R282, R410, R412). [DEDUCED, log 29] -/
def Dev.serveHeld (d : Dev) : Dev :=
  d.host.waiting.foldl (fun (e : Dev) r => match r with
    | .rd hpa mv withData => e.hostRead hpa mv withData
    | .wr hpa data be mv => e.hostWrite hpa data be mv
    | .clean hpa => e.hostClean hpa) { d with host := { d.host with waiting := [] } }

/-- A response to a back-invalidate snoop; `shared` for BIRspS, which only BISnpData may have (R267, R272). [DEDUCED, log 29] -/
def Dev.biResponse (d : Dev) (hpa : Nat) (shared : Bool) : Dev :=
  if !d.linkUp then d
  else match d.dpaOf hpa with
    | none => d
    | some (p, pa) =>
      let l : Line := ⟨false, pa / 128⟩
      if (d.part p).state == .containing then { d with contBi := d.contBi.filter (fun n => n != l.n) }
      else if !d.partRuns p then d
      else match d.place p l with
        | none => d
        | some (s, set) =>
          match (d.slice s).awaitOf l with
          | none => d
          | some a =>
            if a.bi.isNone || (shared && a.bi != some .data) then d
            else if d.inj.aim = some (9, 0x400) then d.fireInjection
            else (d.setHostBits p s set l shared false).settleAwait p s { a with bi := none }

/-- BIRSPI (R267). -/
def execBirspi (hpa : Nat) (s : State) : Host.Outcome State Fault Refusal := done s (s.dev.biResponse hpa false)

/-- BIRSPS (R267). -/
def execBirsps (hpa : Nat) (s : State) : Host.Outcome State Fault Refusal := done s (s.dev.biResponse hpa true)

/-- A host snoop to the agent of a partition (R274, R275, R282, R410). -/
def Dev.hostSnoop (d : Dev) (p hpa : Nat) (k : SnpKind) : Dev :=
  let l : Line := ⟨true, hpa / 128⟩
  if !d.linkUp || (d.pconf p).isNone then d
  else if !d.partRuns p then d.tell (.snpRsp p l.addr .i none)
  else match d.homeSlice p l with
    | none => d
    | some s => d.arrive p s { rid := 0, src := .host, line := l, kind := .snoop k, arrived := d.coh }

/-- SNPDATA (R274). -/
def execSnpdata (partition hpa : Nat) (s : State) : Host.Outcome State Fault Refusal := done s (s.dev.hostSnoop partition hpa .data)

/-- SNPINV (R274). -/
def execSnpinv (partition hpa : Nat) (s : State) : Host.Outcome State Fault Refusal := done s (s.dev.hostSnoop partition hpa .inv)

/-- SNPCUR (R274). -/
def execSnpcur (partition hpa : Nat) (s : State) : Host.Outcome State Fault Refusal := done s (s.dev.hostSnoop partition hpa .cur)

/-- HOST_CACHE_RESPONSE: the state the host grants for a line the proxy slice asked for, with its data (R274). -/
def execHostCacheResponse (partition hpa : Nat) (grant : Mesi) (data : LineData) (s : State) : Host.Outcome State Fault Refusal :=
  let d := s.dev
  let l : Line := ⟨true, hpa / 128⟩
  if !d.linkUp || !d.partRuns partition then done s d
  else if d.inj.aim = some (9, 0x400) then done s d.fireInjection
  else match d.place partition l with
    | none => done s d
    | some (n, set) =>
      let x := d.slice n
      match x.awaitOf l, x.findWay set (d.homeWays partition) l with
      | some a, some (k, w) =>
        match a.d2h with
        | none => done s d
        | some kind =>
          let w1 := if kind = .rdOwnNoData then { w with mesi := grant, valid := 0 }
            else { w with mesi := grant, valid := if grant = .i then 0 else 15, data := data }
          done s ((d.setSlice n (x.setWay k w1)).settleAwait partition n { a with d2h := none })
      | _, _ => done s d

end Sys2Proof.Machine
end

