-- ==== Sys2Proof/Machine/Power.lean ====
section
/-! DEFINITION. The power controller: budget and loop, limits, sag stages, coolant stop, thermal trip, power-up and
power-down (16, 21 R574-R581). -/

namespace Sys2Proof.Machine

open Sys2Proof

/-- The SZ3 runs its partitions: ready, and not stopped under R487 or R496. -/
def Dev.live (d : Dev) : Bool := d.start.state == .ready && !d.faults.stopped

/-- The management rail is on. -/
def Dev.mgmtOn (d : Dev) : Bool := d.power.rails.mgmt

/-! ## Off -/

/-- Everything loses power but the flash (R467): what remains is the flash, the fuses and the lands. -/
def Dev.unpowered (d : Dev) (locked : Bool) : Dev :=
  { fresh := d.fresh, nextId := d.nextId, flash := d.flash, toHost := d.toHost
    host := { last := d.host.last }, faults := { traced := d.faults.traced }
    power := { rails := { mgmt := false, ucie := false }, pins := { d.power.pins with thermtrip := false }, locked := locked, armed := false } }

/-- The rails of step 3 of R485 go off: only management and UCIe PHY stay (R487). [DEDUCED, log 41] -/
def Dev.railsOff (d : Dev) : Dev :=
  { d with power := { d.power with rails := {}, set := List.replicate 16 0, reason := List.replicate 16 0, inputDrop := 0 }
           ports := d.ports.map (fun x => (x.1, { x.2 with state := if x.2.state = .disabled then .disabled else .down, lanes := 0,
                                                            retraining := false, retry := [], txq := [], ctrlIn := [], bulkIn := [] })) }

/-- The open page and a waiting page are lost and counted (19 R555, 21 R575). -/
def Dev.losePages (d : Dev) : Dev :=
  if d.ledger.running then
    let n := 1 + d.ledger.waiting.length
    { d with ledger := { pagesLost := min (d.ledger.pagesLost + n) 0xFFFF }, counts := [] }
  else d

/-- A stop of the module: every partition is lost, the rails go off, FAULT_N is asserted (R485-R487, 17 R496). [DEDUCED, log 41] -/
def Dev.stopModule (d : Dev) (how : Flush) (cause : Nat) (e : LogEntry) : Dev :=
  let d1 := (d.loseAll how cause { e with moduleWide := true }).losePages.railsOff
  { d1 with faults := { d1.faults with stopped := true, faultN := true } }

/-! ## The loop -/

/-- The partition of a core rail, and its core_ceiling. -/
def Dev.railPart (d : Dev) (x : Nat) : Option Nat := d.partOfStack (x / 2)
def Dev.coreCeiling (d : Dev) (x : Nat) : Nat :=
  match d.railPart x with
  | some p => d.conf.ceil.getD p 0
  | none => 0

/-- L_p (R472). -/
def Dev.limitOf (d : Dev) (p : Nat) : Nat :=
  let share := fun (k : Nat) => match d.pconf k with | some c => c.share | none => 0
  let sum := (List.range 4).foldl (fun n k => n + share k) 0
  if sum = 0 then 0 else d.power.budget * share p / sum

/-- The monitors of a core rail's region (R476). -/
def railMonitors (x : Nat) : List Nat :=
  (List.range 10).map (fun k => 20 * (x / 2) + 10 * (x % 2) + k) ++ (List.range 12).map (fun k => 160 + 12 * (x / 2) + k)
    ++ (List.range 8).map (fun k => 256 + k)

/-- The thermal ceiling of a rail after one period (R476, R477). [DESIGN CHOICE, log 39] -/
def Dev.thermalNext (d : Dev) (x : Nat) : Nat :=
  let now := d.power.thermal.getD x 800
  let temps := (railMonitors x).map (fun m => sget 0 d.power.temps m)
  let hot := temps.any (fun t => decide (t ≥ d.conf.tj))
  let cool := temps.all (fun t => decide (t + 3 ≤ d.conf.tj))
  let alert := (List.range 3).any (fun k => d.memAlert (3 * (x / 2) + k))
  let fall := (if hot then 10 else 0) + (if alert then 25 else 0)
  if fall > 0 then max 550 (now - fall) else if cool then min 800 (now + 10) else now

/-- The setpoint that a power limit allows: free, and below the highest setpoint while power must be shed (R473). [DESIGN CHOICE, log 38] -/
def powerLevel (n : Nat) (shed : Bool) (highest : Nat) : Nat :=
  let free := 550 + 5 * (Config.powerLevel n % 51)
  if shed then max 550 (min free (highest - 5)) else free

/-- The constraint that gives the lowest value; of equals the one with the higher code (R478). -/
def lowestOf : List (Nat × Nat) → Nat × Nat
  | [] => (0, 800)
  | (c, v) :: rest => let b := lowestOf rest; if v < b.2 ∨ (v = b.2 ∧ c > b.1) then (c, v) else b

/-- The constraints on a rail: reason and value in mV. [DESIGN CHOICE, log 39] -/
def Dev.constraints (d : Dev) (meas : PowerMeas) (x levelPart levelModule : Nat) : List (Nat × Nat) :=
  [(1, levelPart), (1, levelModule), (2, max 550 (d.coreCeiling x - d.power.inputDrop)), (3, d.power.thermal.getD x 800)]
    ++ (if meas.railMa.getD x 0 ≥ 1000 * d.conf.coreCap ∧ d.conf.coreCap > 0 then [(2, d.power.set.getD x 0)] else [])
    ++ (if d.stage ≥ 2 then [(4, 600)] else [])

/-- One rail's setpoint and reason after a period (R473, R478). -/
def railNext (now reason ceiling : Nat) (c : Nat × Nat) : Nat × Nat :=
  let target := max 550 (min ceiling c.2)
  let set := if now > target then max target (now - 25) else min target (now + 10)
  (set, if set ≥ ceiling then 0 else if set < target ∧ reason ≠ 0 then reason else c.1)

/-- CONTROL_PERIOD: readings, the budget of the period, thermal ceilings, targets, setpoints (R471-R478). At stage 4 the
ceilings still move and the setpoints wait (R489); where no partition runs, only the readings of PWR_INPUT are taken
(R488). [DESIGN CHOICE, log 38; DESIGN CHOICE, log 39] -/
def doControlPeriod (meas : PowerMeas) (d : Dev) : Dev :=
  let w := d.power
  if !d.live then
    (if d.mgmtOn then { d with power := { w with inputW := meas.inputW, inputDa := meas.inputDa } } else d)
  else
    let d1 : Dev := { d with power := { w with inputW := meas.inputW, inputDa := meas.inputDa, partW := (List.range 4).map (fun p => meas.partW.getD p 0)
                                               budget := if w.next ≠ 0 then w.next else w.budget, next := 0
                                               thermal := (List.range 16).map (fun x => d.thermalNext x) } }
    if d.stage ≥ 4 then d1
    else
      let highest := fun (p : Option Nat) => (List.range 16).foldl (fun n x => if p.isNone ∨ d.railPart x = p then max n (w.set.getD x 0) else n) 0
      let n := d1.fresh
      let module := powerLevel n (decide (meas.inputW > d1.power.budget)) (highest none)
      let part := fun (p : Nat) => powerLevel (n + 1 + p) (decide (meas.partW.getD p 0 > d1.limitOf p)) (highest (some p))
      let next := (List.range 16).map (fun x =>
        match d.railPart x with
        | none => (w.set.getD x 0, 0)
        | some p => railNext (w.set.getD x 0) (w.reason.getD x 0) (d.coreCeiling x) (lowestOf (d1.constraints meas x (part p) module)))
      { d1 with fresh := n + 5, power := { d1.power with set := next.map (fun y => y.1), reason := next.map (fun y => y.2) } }

def execControlPeriod (meas : PowerMeas) (s : State) : Host.Outcome State Fault Refusal := done s (doControlPeriod meas s.dev)

/-- CORE_CURRENT_LIMIT: the regulator has lowered a rail that reached core_cap; the loop adopts the voltage (R475). -/
def doCoreCurrentLimit (rail mv : Nat) (d : Dev) : Dev :=
  if d.live && decide (rail < 16) && decide (550 ≤ mv) && decide (mv < d.power.set.getD rail 0) then
    { d with power := { d.power with set := d.power.set.set rail mv, reason := d.power.reason.set rail 2 } }
  else d

def execCoreCurrentLimit (rail mv : Nat) (s : State) : Host.Outcome State Fault Refusal := done s (doCoreCurrentLimit rail mv s.dev)

/-- INPUT_CURRENT_LIMIT: after 10 µs above 125 A every core ceiling falls by 25 mV; at or below 125 A the limit is
released (R475). [DESIGN CHOICE, log 39] -/
def doInputCurrentLimit (isOver : Bool) (d : Dev) : Dev :=
  if !d.live then d
  else if isOver then
    let drop := min 250 (d.power.inputDrop + 25)
    let lower := fun (x : Nat) => max 550 (d.coreCeiling x - drop)
    let hit := fun (x : Nat) => (d.railPart x).isSome && decide (d.power.set.getD x 0 > lower x)
    { d with power := { d.power with inputDrop := drop
                                     set := (List.range 16).map (fun x => if hit x then lower x else d.power.set.getD x 0)
                                     reason := (List.range 16).map (fun x => if hit x then 2 else d.power.reason.getD x 0) } }
  else { d with power := { d.power with inputDrop := 0 } }

def execInputCurrentLimit (isOver : Bool) (s : State) : Host.Outcome State Fault Refusal := done s (doInputCurrentLimit isOver s.dev)

/-- Whether a thermal monitor's die is powered. -/
def Dev.monitorOn (d : Dev) (m : Nat) : Bool :=
  let r := d.power.rails
  if m < 160 then r.core else if m < 256 then r.base else decide (m < 264) && r.mgmt

/-- MONITOR_READING: a temperature reaches the management plane (R476). -/
def doMonitorReading (monitor reading : Nat) (d : Dev) : Dev :=
  if d.monitorOn monitor then { d with power := { d.power with temps := sset 0 d.power.temps monitor reading } } else d

def execMonitorReading (monitor reading : Nat) (s : State) : Host.Outcome State Fault Refusal :=
  done s (doMonitorReading monitor reading s.dev)

/-- The setpoint that a rail shows: retention at stage 4 (R466, R482). -/
def Dev.railMv (d : Dev) (x : Nat) : Nat := if d.stage = 4 ∧ d.power.set.getD x 0 > 0 then 450 else d.power.set.getD x 0

/-- The reason that a rail shows (R478). -/
def Dev.railReason (d : Dev) (x : Nat) : Nat := if d.live && (d.stage == 3 || d.stage == 4) then 4 else d.power.reason.getD x 0

/-- The reason that a die counts (R479); 0 when neither rail is throttled. -/
def Dev.dieReason (d : Dev) (k : Nat) : Nat :=
  let n := d.railReason (2 * k)
  let s := d.railReason (2 * k + 1)
  if n = 0 then s else if s = 0 then n
  else if d.power.set.getD (2 * k + 1) 0 < d.power.set.getD (2 * k) 0 then s else n

/-! ## Sag stages (R482-R484) -/

/-- Sag stage 4 or 5, a stop or a hub fault ends an unseal in progress: SEALED again, key_lock stays, and the
acknowledge, where one is written, is ABORTED (18 R529). -/
def Dev.abortUnseal (d : Dev) (ack : Bool) : Dev :=
  match d.sec.run with
  | none => d
  | some r =>
    let d1 : Dev := { d with sec := { d.sec with sealSt := .sealed, run := none } }
    if ack then d1.mailAck mbSecure (BitVec.ofNat 16 r.seq) 0x0108 else d1

/-- The action of entering a stage. -/
def Dev.sagAction (d0 : Dev) (k : Nat) : Dev :=
  let d := if k = 4 then d0.abortUnseal true else if k = 5 then d0.abortUnseal false else d0
  match k with
  | 1 => d.halvePorts
  | 2 =>
    let hit := fun (x : Nat) => decide (d.power.set.getD x 0 > 600)
    { d with power := { d.power with set := (List.range 16).map (fun x => if hit x then 600 else d.power.set.getD x 0)
                                     reason := (List.range 16).map (fun x => if hit x then 4 else d.power.reason.getD x 0) } }
  | 5 =>
    let d1 := (d.loseAll .nothing 0x96 { time := d.time, kind := 3, moduleWide := true }).losePages.railsOff
    { d1 with power := { d1.power with rails := { ucie := false } }, faults := { d1.faults with stopped := true, faultN := true } }
  | _ => d

/-- Enters the stages above the present one up to `top`, in ascending order; each counts (R482, R488). [DEDUCED, log 41] -/
def Dev.enterStages (d : Dev) (top : Nat) : Dev :=
  (List.range 5).foldl (fun (e : Dev) j =>
    let k := j + 1
    if d.stage < k ∧ k ≤ top then
      ({ e with stage := k, power := { e.power with entries := (e.power.entries + 1) % 2 ^ 32 } } : Dev).sagAction k
    else e) d

/-- Entry and exit thresholds in mV. -/
def sagEntry : List Nat := [40000, 38000, 36000, 34000, 32000]
def sagExit : List Nat := [41000, 39000, 37000, 35000]

/-- INPUT_SAMPLE: one sample of the input voltage (R482). At stage 5 the management rail goes off at the next sample. [DEDUCED, log 41] -/
def doInputSample (mv : Nat) (d : Dev) : Dev :=
  if !d.mgmtOn then d
  else if d.stage ≥ 5 then d.unpowered true
  else
    let w := { d.power with inputMv := mv }
    if !w.armed then { d with power := w }
    else
      let below := (sagEntry.zip w.below).map (fun x => if mv < x.1 then min 10 (x.2 + 1) else 0)
      let above := (sagExit.zip w.above).map (fun x => if mv > x.1 then min 1001 (x.2 + 1) else 0)
      let d1 : Dev := { d with power := { w with below := below, above := above
                                                 lowest := if w.lowest = 0 then mv else min w.lowest mv } }
      d1.enterStages ((List.range 5).foldl (fun n k => if below.getD k 0 ≥ 10 then k + 1 else n) 0)

def execInputSample (mv : Nat) (s : State) : Host.Outcome State Fault Refusal := done s (doInputSample mv s.dev)

/-- Every partition's quarters go on (R483). -/
def Dev.pumpAll (d : Dev) : Dev := (List.range 4).foldl (fun (e : Dev) p => if e.partRuns p then e.pump p else e) d

/-- STAGE_EXIT: the present stage is left when the input has been above its exit threshold for 1 ms (R482, R483). [DEDUCED, log 41] -/
def doStageExit (d : Dev) : Dev :=
  if !d.mgmtOn || d.stage = 0 || decide (d.stage ≥ 5) || decide (d.power.above.getD (d.stage - 1) 0 < 1001) then d
  else
    let d1 : Dev := { d with stage := d.stage - 1 }
    match d.stage with
    | 4 => if d.live then { d1 with recalBase := d.time } else d1
    | 3 => if d.live then d1.pumpAll.serveHeld else d1
    | 2 => if d.power.stored ≠ 0 then { d1 with power := { d1.power with budget := d.power.stored, stored := 0 } } else d1
    | _ => d1.widenPorts

def execStageExit (s : State) : Host.Outcome State Fault Refusal := done s (doStageExit s.dev)

/-- PWR_OK_DEASSERT: after the first assertion it enters stage 5 at once (R482, R576). -/
def doPwrOkDeassert (d : Dev) : Dev :=
  if !d.power.pins.pwrOk then d
  else
    let d1 : Dev := { d with power := { d.power with pins := { d.power.pins with pwrOk := false } } }
    if d.mgmtOn && d.power.armed && decide (d.stage < 5) then d1.enterStages 5 else d1

def execPwrOkDeassert (s : State) : Host.Outcome State Fault Refusal := done s (doPwrOkDeassert s.dev)

/-! ## Coolant and temperature (R485-R487) -/

/-- FLOW_OK_N_DEASSERT. -/
def doFlowOkNDeassert (d : Dev) : Dev :=
  if d.power.pins.flowOk then
    { d with power := { d.power with pins := { d.power.pins with flowOk := false }, flowAt := d.time, flowOver := false } }
  else d

def execFlowOkNDeassert (s : State) : Host.Outcome State Fault Refusal := done s (doFlowOkNDeassert s.dev)

/-- PWR_STOP and the STOP entry (R488, 17 R501). -/
def Dev.recordStop (d0 : Dev) (cause tj : Nat) : Dev :=
  let d := d0.abortUnseal true
  ({ d with power := { d.power with stopCause := cause, tjTrip := tj, stopTime := d.time } }).logEntry
    { time := d.time, kind := 8, moduleWide := true, location := 8 }

/-- What a stop does to partitions and rails: all of it once ready, the phase in progress halted from phase 4 on,
nothing before (R487). -/
def Dev.stopNow (d : Dev) (how : Flush) : Dev :=
  match d.start.state with
  | .ready => if d.faults.stopped then d else d.stopModule how 0x97 { time := d.time, kind := 3 }
  | .starting =>
    if d.start.phase ≥ 4 then
      let d1 := (d.loseAll how 0x97 { time := d.time, kind := 3, moduleWide := true }).railsOff
      { d1 with start := { d1.start with env := { d1.start.env with hang := some d1.start.phase } } }
    else d
  | _ => d

/-- COOLANT_STOP: FLOW_OK_N has been deasserted for 5 ms (R485, R487, R489). -/
def doCoolantStop (d : Dev) : Dev :=
  let w := d.power
  if d.mgmtOn && w.pins.resetN && !w.pins.flowOk && !w.flowOver && decide (d.time ≥ w.flowAt + 5000000) then
    let d1 : Dev := { d with power := { w with flowOver := true } }
    (d1.recordStop 1 0).stopNow (if d.stage ≥ 4 then .noWrite else .full)
  else d

def execCoolantStop (s : State) : Host.Outcome State Fault Refusal := done s (doCoolantStop s.dev)

/-- THERMAL_TRIP: a powered monitor reads 115 °C or above (R486). [DEDUCED, log 41] -/
def doThermalTrip (monitor tj : Nat) (d : Dev) : Dev :=
  if d.mgmtOn && decide (tj ≥ 115) && d.monitorOn monitor then
    let d1 : Dev := { d with power := { d.power with pins := { d.power.pins with thermtrip := true }
                                                     temps := sset 0 d.power.temps monitor tj } }
    (d1.recordStop 2 (min tj 255)).stopNow (if monitor ≥ 160 then .nothing else if d.stage ≥ 4 then .noWrite else .full)
  else d

def execThermalTrip (monitor tj : Nat) (s : State) : Host.Outcome State Fault Refusal := done s (doThermalTrip monitor tj s.dev)

/-! ## Power-up, reset (21 R574-R576, R581) -/

/-- What a reset leaves: flash, seal state and key_lock, PWR_STOP, pages_lost, the lands (R488, R575, 18 R521, 19 R554). -/
def Dev.afterReset (d : Dev) (pins : Pins) : Dev :=
  let w := d.power
  { fresh := d.fresh, nextId := d.nextId, flash := d.flash, toHost := d.toHost, stage := d.stage
    host := { last := d.host.last }, faults := { traced := d.faults.traced }
    ledger := { pagesLost := d.losePages.ledger.pagesLost }
    sec := { sealSt := (match d.sec.sealSt with | .unsealed => .unsealed | _ => .sealed), keyLock := d.sec.keyLock, unseals := d.sec.unseals
             tap := d.sec.tap }
    power := { rails := {}, pins := pins, locked := w.locked, armed := w.armed, below := w.below, above := w.above, inputMv := w.inputMv
               lowest := w.lowest, entries := w.entries, stopCause := w.stopCause, tjTrip := w.tjTrip, stopTime := w.stopTime
               glitches := w.glitches, temps := w.temps.filter (fun x => decide (x.1 ≥ 256)) } }

/-- RESET_N_ASSERT (R575). -/
def doResetNAssert (d : Dev) : Dev :=
  let pins := { d.power.pins with resetN := false }
  if d.mgmtOn && decide (d.stage < 5) then d.afterReset { pins with thermtrip := false }
  else { d with power := { d.power with pins := pins } }

def execResetNAssert (s : State) : Host.Outcome State Fault Refusal := done s (doResetNAssert s.dev)

/-- VIN_RISE: VIN rises through 30 V: the management rail comes on, a cold start (R574, R576, 18 R521). -/
def doVinRise (fieldReturn : Bool) (d : Dev) : Dev :=
  if d.power.pins.vin30 then d
  else
    let pins := { d.power.pins with vin30 := true }
    { (d.unpowered false) with
      sec := { sealSt := if fieldReturn then .unsealed else .sealed }
      power := { rails := { ucie := false }, pins := pins, armed := pins.pwrOk } }

def execVinRise (s : State) : Host.Outcome State Fault Refusal := done s (doVinRise s.fuses.fieldReturn s.dev)

/-- VIN_LOSS: VIN falls below 30 V: power is lost as at a reset (R581). -/
def doVinLoss (d : Dev) : Dev :=
  let e := d.unpowered false
  { e with power := { e.power with pins := { e.power.pins with vin30 := false } } }

def execVinLoss (s : State) : Host.Outcome State Fault Refusal := done s (doVinLoss s.dev)

end Sys2Proof.Machine
end

