-- ==== Sys2Proof/Machine/Host.lean ====
section
/-! DEFINITION. What the host reaches: functions, BARs, doorbell pages (13 R395-R401). -/

namespace Sys2Proof.Machine

open Sys2Proof

/-- Configuration space of a function: 0 is physical function 0, k virtual function k. -/
def Dev.fnCfg (d : Dev) (k : Nat) : FnCfg := sget {} d.host.cfg k

/-- Whether CXL.io carries requests: the link is up and the management plane has its rails. -/
def Dev.ioUp (d : Dev) : Bool := d.host.link == .up

/-- Whether a function is there: a virtual function with VF Enable, outside oasis mode (R396). -/
def Dev.fnThere (d : Dev) (k : Nat) : Bool :=
  k == 0 || (decide (k ≤ 256) && (d.fnCfg 0).vfEnable && d.start.state != .oasis)

/-- Whether the host reaches a function's BARs (R395, R397). -/
def Dev.barOpen (d : Dev) (k : Nat) : Bool :=
  d.ioUp && d.fnThere k && (d.fnCfg k).memEnable && !(d.fnCfg k).d3hot

/-- The queue of a doorbell slot that a source reaches for a write (R335, R401). -/
def Dev.bellTarget (d : Dev) (src : DblSource) (page slot : Nat) : Option Nat :=
  if slot ≥ 64 then none else
  match src with
  | .pf0 =>
    if d.barOpen 0 && decide (page < 512) && (match d.fnOfBlock page with | some fn => decide (fn ≥ 0x100) | none => false)
      then some (64 * page + slot) else none
  | .vf k =>
    if d.barOpen k && decide (k ≥ 1) then (d.blocksOf (k - 1))[page]?.map (fun b => 64 * b + slot) else none
  | .core die _ =>
    if die < 8 && decide (page < 512) && d.partOfLode (page / 128) == d.partOfStack die then some (64 * page + slot) else none

end Sys2Proof.Machine
end

