-- ==== Sys2Proof/Machine/Ring.lean ====
section
/-! DEFINITION. Debug rings and their records, halted groups, killed blocks, BKPT (03 R115-R125, 06 R223). -/

namespace Sys2Proof.Machine

open Sys2Proof

/-! ## Rings (R122, R123) -/

def Dev.ringOf (d : Dev) (fn : Nat) : Option DebugRing := sfind d.rings fn
def Dev.setRing (d : Dev) (fn : Nat) (r : DebugRing) : Dev := { d with rings := sput d.rings fn r }

/-- Records of halted groups still unwritten. -/
def DebugRing.waiting (r : DebugRing) : Nat := (r.pending.filter (fun x => x % 2 ^ 16 == 1 || x % 2 ^ 16 == 2)).length

/-- The `pending` field of the control block. -/
def Dev.ringPending (d : Dev) (p fn : Nat) : Dev :=
  match d.ringOf fn with
  | none => d
  | some r => (d.cpWrite p fn (r.base + 0x10) 4 r.waiting).1

/-- Writes the oldest pending record while the ring has space, then producer (R123). False when nothing was written. -/
def Dev.ringWriteOne (d : Dev) (p fn : Nat) : Dev × Bool :=
  match d.ringOf fn with
  | none => (d, false)
  | some r =>
    match r.pending with
    | [] => (d, false)
    | x :: rest =>
      match d.cpRead p fn (r.base + 8) 8 with
      | (d1, .ok consumer) =>
        if r.producer < consumer + 2 ^ r.k then
          match d1.cpWrite p fn (r.base + 64 + 64 * (r.producer % 2 ^ r.k)) 64 (putBytes x 2 2 r.producer) with
          | (d2, .ok _) =>
            match d2.cpWrite p fn r.base 8 (r.producer + 1) with
            | (d3, .ok _) => (d3.setRing fn { r with producer := r.producer + 1, pending := rest }, true)
            | (d3, _) => (d3, false)
          | (d2, _) => (d2, false)
        else (d1, false)
      | (d1, _) => (d1, false)

def Dev.ringFlushFor (d : Dev) (p fn : Nat) : Nat → Dev
  | 0 => d
  | fuel + 1 => match d.ringWriteOne p fn with
    | (d1, true) => Dev.ringFlushFor d1 p fn fuel
    | (d1, false) => d1

/-- Writes what can be written and shows the rest in `pending`. -/
def Dev.ringFlush (d : Dev) (p fn : Nat) : Dev :=
  match d.ringOf fn with
  | none => d
  | some r => (d.ringFlushFor p fn r.pending.length).ringPending p fn

/-- A record goes to a function's ring, when one is attached. -/
def Dev.ringPut (d : Dev) (p fn x : Nat) : Dev :=
  match d.ringOf fn with
  | none => d
  | some r => (d.setRing fn { r with pending := r.pending ++ [x] }).ringFlush p fn

/-! ## Records (R124, R125) -/

/-- The halt handle of a group slot as it stands. -/
def Dev.handle (d : Dev) (key : Nat) : Nat :=
  let ck := coreOfKey key
  ck / 256 + (ck % 256) * 2 ^ 3 + subOfKey key * 2 ^ 11 + slotOfKey key * 2 ^ 13 + (sget 0 (d.core ck).gens (key % 64)) * 2 ^ 17

/-- The group key of a handle. -/
def handleKey (h : Nat) : Nat := groupKey (h % 8) (h / 2 ^ 3 % 256) (h / 2 ^ 11 % 4) (h / 2 ^ 13 % 16)

/-- The generation of a group slot rises (R125). [DEDUCED, log 47] -/
def Dev.bumpGen (d : Dev) (key : Nat) : Dev :=
  let co := d.core (coreOfKey key)
  d.setCore (coreOfKey key) { co with gens := sset 0 co.gens (key % 64) ((sget 0 co.gens (key % 64) + 1) % 2 ^ 15) }

/-- The pc of a group's next instruction: of the running path, else of the path that runs next or waits first. -/
def Group.nextPc (g : Group) : Option Nat :=
  match g.running with
  | some p => some p.pc
  | none => g.paths.head?.map (fun p => p.pc)

/-- The 64 bytes of a record but seq (R124). -/
def Dev.haltRecord (d : Dev) (key kind : Nat) (g : Group) (active : Lanes) (imm pc : Nat) : Nat :=
  let (bx, by', bz) := match d.run g.q g.i, d.blockOf key g with
    | some r, some b => (b.index % r.gx, b.index / r.gx % r.gy, b.index / r.gx / r.gy)
    | _, _ => (0, 0, 0)
  kind + d.handle key * 2 ^ 32 + (pc % 2 ^ 56) * 2 ^ 64 + active.toNat * 2 ^ 128 + g.exited.toNat * 2 ^ 160 + g.q * 2 ^ 192
    + g.paths.length * 2 ^ 224 + g.num * 2 ^ 240 + g.i * 2 ^ 256 + (bx % 2 ^ 32) * 2 ^ 320 + (by' % 2 ^ 32) * 2 ^ 352
    + (bz % 2 ^ 16) * 2 ^ 384 + imm * 2 ^ 400 + (d.time % 2 ^ 64) * 2 ^ 448

/-- Puts a record about a group into the ring of the function that owns its task's queue (R116, R118). [DEDUCED, log 47] -/
def Dev.putRecord (d : Dev) (p key kind : Nat) (g : Group) (active : Lanes) (imm : Nat) : Dev :=
  let (pc, d1) := match g.nextPc with
    | some pc => (pc, d)
    | none => let (n, e) := d.takeFresh; ((Config.recordPc n).toNat, e)
  d1.ringPut p (d.fnOfQueue g.q) (d1.haltRecord key kind g active imm pc)

/-- A step is over: the group is halted again and its STEP record goes to the ring (R119). -/
def Dev.endStep (d : Dev) (p key : Nat) (active : Lanes) : Dev :=
  match d.group key with
  | none => d
  | some g =>
    let g1 := { g with stepping := none, halted := some { active := active } }
    (d.setGroup key g1).putRecord p key 2 g1 active 0

/-- After matrix work of a group has completed: a step that waited for it is over (R223). -/
def Dev.stepDone (d : Dev) (p key : Nat) : Dev :=
  match d.group key with
  | none => d
  | some g => match g.stepping with
    | some m => if d.matrixBusy key then d else d.endStep p key m
    | none => d

/-! ## Killed blocks (R120, R223) -/

/-- Ends every group of a block without a record: the work that holds a matrix unit finishes, later matrix work is
discarded; its resources are free without waiting for the cluster. -/
def Dev.killBlock (d : Dev) (ck slot : Nat) : Dev :=
  match (d.core ck).block slot with
  | none => d
  | some b =>
    let gs := d.groupsOf ck slot
    let d1 := d.setCore ck ((d.core ck).setBlock { b with killed := true })
    let d2 := match d1.run b.q b.i with
      | some r => d1.setRun { r with killed := true }
      | none => d1
    let d3 := gs.foldl (fun (e : Dev) x =>
      let e1 := if x.2.halted.isSome || x.2.stepping.isSome then e.bumpGen x.1 else e
      let uk := x.1 / 16
      let e2 := match e1.munit uk with
        | [] => e1
        | m :: ms => e1.setMunit uk (m :: ms.filter (fun y => y.gkey != x.1))
      (e2.setGroup x.1 { x.2 with paths := [], ended := true, halted := none, stepping := none }).reapGroup x.1) d2
    (d3.endBlock ck slot).clusterBarrier (ck / 256) b

/-- The blocks of a task on the cores: core key and slot. -/
def Dev.blocksOfTask (d : Dev) (q i : Nat) : List (Nat × Nat) :=
  d.cores.flatMap (fun x => (x.2.blocks.filter (fun b => b.q == q && b.i == i)).map (fun b => (x.1, b.slot)))

/-- Kills every placed block of a task (R366 step 3). -/
def Dev.killTask (d : Dev) (q i : Nat) : Dev :=
  (d.blocksOfTask q i).foldl (fun (e : Dev) x => e.killBlock x.1 x.2) d

/-! ## BKPT (R115, R116, R168) -/

/-- BKPT: where the task's debug flag is set and a ring is attached, the whole group halts and a BREAK record goes to
the ring. [DEDUCED, log 11] -/
def doBkpt (g : GroupRef) (w : FmtI) (d : Dev) : Dev :=
  d.issueGen g (fun c => if w.uf then none else iUses c.grp.nv w none none) true (fun c =>
    let next := some (c.path.pc + 8)
    if c.lanes w.guard ≠ 0 && c.run.debug && (d.ringOf c.run.fn).isSome then
      let d1 := d.advance c.key (c.path.pc + 8)
      match d1.group c.key with
      | none => { dev := d1 }
      | some g1 =>
        let g2 := { g1 with halted := some { active := c.path.mask } }
        { dev := (d1.setGroup c.key g2).putRecord c.part c.key 1 g2 c.path.mask w.imm16.toNat }
    else { dev := d, next := next })

def execBkpt (g : GroupRef) (w : FmtI) (s : State) : Host.Outcome State Fault Refusal := done s (doBkpt g w s.dev)

/-- PENDING_RECORD_WRITE: the ring of a function has space again (R123). -/
def execPendingRecordWrite (ring : Nat) (s : State) : Host.Outcome State Fault Refusal :=
  let d := s.dev
  match d.partOfFn ring with
  | none => done s d
  | some p => done s (if d.partRuns p then d.ringFlush p ring else d)

end Sys2Proof.Machine
end

