-- ==== Sys2Proof/Machine/Kernel.lean ====
section
/-! DEFINITION. Kernel tasks: the checks at release, and the placement of blocks and clusters (03 R81-R106, 11 R347-R351,
12 R370-R373). -/

namespace Sys2Proof.Machine

open Sys2Proof

/-! ## Resources (R85, R86, R88, R89, R103) -/

/-- Threads and groups of a block. -/
def Run.threads (r : Run) : Nat := r.dx * r.dy * r.dz
def Run.groups (r : Run) : Nat := (r.threads + 31) / 32
def Run.csize (r : Run) : Nat := r.cx * r.cy * r.cz

/-- Groups of a block on sub-core s (R86). -/
def Run.groupsOn (r : Run) (s : Nat) : Nat := (r.groups + 3 - s) / 4

/-- KiB of local memory of a split code. -/
def splitKib (n : Nat) : Nat := 256 + 128 * n

/-- Blocks of the task that fit on an empty core. -/
def Run.perCore (r : Run) : Nat :=
  let sub := (List.range 4).foldl (fun (m : Nat) s =>
    let n := r.groupsOn s
    if n = 0 then m
    else min (min (min m (16 / n)) (65536 / (32 * r.nv * n))) (if r.acc = 0 then m else 64 / (r.acc * n))) 32
  if r.lmem = 0 then sub else min sub (splitKib r.split / r.lmem)

/-- Whether a core has enough resources for one block more (R103). -/
def Dev.coreFits (d : Dev) (r : Run) (ck : Nat) : Bool :=
  let co := d.core ck
  let here := d.groups.filter (fun x => coreOfKey x.1 == ck)
  (co.blocks.isEmpty || co.split == splitKib r.split)
    && decide (co.blocks.length < 32)
    && decide ((co.blocks.foldl (fun n b => n + b.lmem) 0) + r.lmem ≤ splitKib r.split)
    && (List.range 4).all (fun s =>
      let gs := here.filter (fun x => subOfKey x.1 == s)
      let n := r.groupsOn s
      decide (gs.length + n ≤ 16)
        && decide ((gs.foldl (fun m x => m + 32 * x.2.nv) 0) + 32 * r.nv * n ≤ 65536)
        && decide ((gs.foldl (fun m x => m + x.2.acc) 0) + r.acc * n ≤ 64))

/-- The cores of a die in ascending number without the disabled ones (R6, R102). -/
def goodCores (f : Fuses) (die : Nat) : List Nat :=
  ((List.range 160).filter (fun c => !f.disabled.contains (die, c))).map (fun c => coreKey die c)

/-- The compute dies of a partition in scan order from the engine's die (R102). -/
def Dev.scanDies (d : Dev) (r : Run) : List Nat :=
  match d.pconf r.part with
  | none => []
  | some c =>
    let dies := (List.range (2 * c.lodes)).map (fun k => 2 * c.first + k)
    dies.filter (fun x => decide (x ≥ r.engine)) ++ dies.filter (fun x => decide (x < r.engine))

/-- Where a unit of placement may go, in scan order: single cores, or core rows for a cluster (R94, R103). -/
def Dev.candidates (d : Dev) (f : Fuses) (r : Run) : List (List Nat) :=
  if r.csize = 1 then ((d.scanDies r).flatMap (goodCores f)).map (fun c => [c])
  else (d.scanDies r).flatMap (fun die =>
    (List.range 10).map (fun row => (goodCores f die).filter (fun c => c % 256 / 16 == row)))

/-! ## Placement (R103, R104) -/

/-- The lowest number not in a list. -/
def lowestFree (used : List Nat) : Nat := ((List.range (used.length + 1)).find? (fun n => !used.contains n)).getD 0

/-- The lanes of a group whose threads exist (R83). -/
def presentLanes (threads num : Nat) : Lanes := BitVec.ofNat 32 (2 ^ min 32 (threads - 32 * num) - 1)

/-- Starts group `num` of a block on its sub-core, in the lowest free slot (R84, R86). -/
def Dev.startGroup (d : Dev) (r : Run) (ck slot num : Nat) : Dev :=
  let sub := num % 4
  let used := (d.groups.filter (fun x => x.1 / 16 == ck * 4 + sub)).map (fun x => slotOfKey x.1)
  let key := (ck * 4 + sub) * 16 + lowestFree used
  let lanes := presentLanes r.threads num
  d.setGroup key { q := r.q, i := r.i, block := slot, num := num, nv := r.nv, acc := r.acc, seed := r.seed, exited := ~~~lanes,
                   paths := [{ mask := lanes, pc := r.entry, status := .running }] }

/-- Places one block on a core: the core takes its split when empty, starts a new epoch, and learns the release number
(R89, R90, R237, R239). -/
def Dev.putBlock (d : Dev) (r : Run) (ck index cluster rank : Nat) : Dev :=
  let co := d.core ck
  let sp := splitKib r.split
  let co1 : Core := if co.blocks.isEmpty && co.split != sp then { co with split := sp, l1 := [] } else co
  let slot := lowestFree (co1.blocks.map (fun b => b.slot))
  let b : Block := { slot := slot, q := r.q, i := r.i, index := index, cluster := cluster, rank := rank, lmem := r.lmem, groups := r.groups }
  let co2 := { co1 with blocks := co1.blocks ++ [b], release := max co1.release r.release }.bumpEpoch
  (List.range r.groups).foldl (fun (e : Dev) num => e.startGroup r ck slot num) (d.setCore ck co2)

/-- Units of placement of a task: blocks or clusters. -/
def Run.units (r : Run) : Nat := r.gx * r.gy * r.gz / r.csize

/-- The linear indices of the blocks of unit `n`, in rank order (R93, R99, R104). -/
def Run.unitBlocks (r : Run) (n : Nat) : List Nat :=
  let nx := r.gx / r.cx
  let ny := r.gy / r.cy
  let x0 := n % nx * r.cx
  let y0 := n / nx % ny * r.cy
  let z0 := n / nx / ny * r.cz
  (List.range r.csize).map (fun k =>
    (x0 + k % r.cx) + r.gx * ((y0 + k / r.cx % r.cy) + r.gy * (z0 + k / r.cx / r.cy)))

/-- Places the blocks in rank order, each on the first core of the list with enough resources. -/
def Dev.placeOn (d : Dev) (r : Run) (bs : List Nat) (cores : List Nat) : Option Dev :=
  bs.zipIdx.foldl (fun (o : Option Dev) b => o.bind (fun e =>
    (cores.find? (fun c => e.coreFits r c)).map (fun ck => e.putBlock r ck b.1 (bs.headD 0) b.2))) (some d)

/-- Places the next unit of a task where it first fits. [DEDUCED, log 27] -/
def Dev.placeNext (d : Dev) (f : Fuses) (r : Run) : Option Dev :=
  ((d.candidates f r).findSome? (fun cores => d.placeOn r (r.unitBlocks r.next) cores)).map (fun e =>
    e.setRun { r with next := r.next + 1, live := r.live + r.csize })

/-- Whether a task has a unit left to place. -/
def Run.offers (r : Run) : Bool := !r.killed && decide (r.next < r.units)

/-- Whether another task keeps this one from placing: one of a higher level with a unit to place (R105, R370), or one of
its own level whose next unit fits nowhere (R371). [DEDUCED, log 27] -/
def Dev.heldBack (d : Dev) (f : Fuses) (r : Run) : Bool :=
  d.runs.any (fun x => x.part == r.part && !(x.q == r.q && x.i == r.i) && x.offers
    && (decide (x.prio > r.prio) || (x.prio == r.prio && (d.placeNext f x).isNone)))

/-- BLOCK_PLACE: the next block or cluster of a task is placed. Nothing is placed from sag stage 3 on (16 R482). [DEDUCED, log 27] -/
def doBlockPlace (f : Fuses) (q i : Nat) (d : Dev) : Dev :=
  match d.run q i with
  | none => d
  | some r =>
    if d.partRuns r.part && decide (d.stage < 3) && !d.faults.stopped && r.offers && !d.heldBack f r then (d.placeNext f r).getD d else d

def execBlockPlace (q i : Nat) (s : State) : Host.Outcome State Fault Refusal := done s (doBlockPlace s.fuses q i s.dev)

/-! ## KERNEL (R347-R351) -/

/-- A task whose class command can act: released, of the class, in a running partition below sag stage 4. [DEDUCED, log 6] -/
def Dev.working (d : Dev) (q i cls : Nat) : Option (Nat × Task) :=
  match d.task q i, d.partOfQueue q with
  | some t, some p =>
    if t.state = .released && t.cls == cls && d.partRuns p && d.coresIssue then some (p, t) else none
  | _, _ => none

/-- The work of a released task is done with a status; TASK_DONE reports it. -/
def Dev.workDone (d : Dev) (t : Task) (st info : Nat) : Dev := d.setTask { t with state := .done st info }

/-- The grid, the constant block and its size, from the descriptor or from the INDIRECT block (R347, R351). `bad` marks
a reserved field or a value out of range. -/
structure Launch where
  gx : Nat
  gy : Nat
  gz : Nat
  cblock : Nat
  size : Nat
  bad : Bool
  deriving DecidableEq, Repr

/-- Reads what a KERNEL task names at release: the device, and the launch, a wait or a failed translation. -/
def Dev.readLaunch (d : Dev) (p : Nat) (t : Task) : Dev × Option Launch × Cp :=
  let fn := d.fnOfQueue t.q
  let va := t.body 1
  let size := t.aux32 % 2 ^ 13
  if t.indirect then
    match d.cpRead p fn va 24 t.acct with
    | (d1, .ok x) =>
      let psize := bytesAt x 12 4
      let pva := bytesAt x 16 8
      let bad := t.aux16 != 0 || size != 0 || t.body 2 != 0 || va % 8 != 0 || decide (bytesAt x 8 4 > 65536) || decide (psize > 4096)
        || psize % 4 != 0 || pva % 4 != 0
      match d1.cpRead p fn pva (min psize 4096) t.acct with
      | (d2, .ok v) => (d2, some ⟨bytesAt x 0 4, bytesAt x 4 4, bytesAt x 8 4, v, psize, bad⟩, .ok 0)
      | (d2, r) => (d2, none, r)
    | (d1, r) => (d1, none, r)
  else
    match d.cpRead p fn va (min size 4096) t.acct with
    | (d1, .ok v) =>
      (d1, some ⟨bytesAt (t.body 2) 0 4 + 1, bytesAt (t.body 2) 4 4 + 1, t.aux16 + 1, v, size,
        decide (size > 4096) || size % 16 != 0 || va % 16 != 0 || (size == 0 && va != 0)⟩, .ok 0)
    | (d1, r) => (d1, none, r)

/-- The run that a launch and a kernel descriptor give (R348). -/
def Dev.mkRun (d : Dev) (p : Nat) (t : Task) (k : Nat) (l : Launch) : Run :=
  let x := d.queue t.q
  let bdim := bytesAt k 0x14 4
  let cdim := bytesAt k 0x18 4
  let res := bytesAt k 0x1C 4
  { q := t.q, i := t.i, part := p, fn := d.fnOfQueue t.q, engine := bindNum (bindByte x.binding t.slot), prio := x.prio, debug := t.debug,
    entry := bytesAt k 0 8, csegVa := bytesAt k 8 8, csegLen := bytesAt k 16 4, cblock := l.cblock, cblockSize := l.size,
    dx := bitsOf bdim 9 0 + 1, dy := bitsOf bdim 19 10 + 1, dz := bitsOf bdim 25 20 + 1,
    cx := bitsOf cdim 3 0 + 1, cy := bitsOf cdim 7 4 + 1, cz := bitsOf cdim 11 8 + 1, gx := l.gx, gy := l.gy, gz := l.gz,
    nv := 8 * (bitsOf res 4 0 + 1), acc := 4 * bitsOf res 9 5, lmem := bitsOf res 19 10, split := bitsOf t.aux32 14 13,
    seed := BitVec.ofNat 64 (t.body 3), release := (d.part p).release + 1, acct := t.acct }

/-- Reserved fields and ranges of the task and its kernel descriptor (R347, R348). -/
def kernelBad (t : Task) (k : Nat) (l : Launch) (r : Run) : Bool :=
  l.bad || t.aux32 / 2 ^ 15 != 0 || r.split == 3 || t.body 0 % 64 != 0 || bytesAt k 0x14 4 / 2 ^ 26 != 0
    || bytesAt k 0x18 4 / 2 ^ 12 != 0 || bytesAt k 0x1C 4 / 2 ^ 20 != 0 || bytesAt k 0x20 32 != 0 || r.entry % 8 != 0
    || r.csegVa % 16 != 0 || (r.csegLen == 0 && r.csegVa != 0) || decide (r.acc > 64) || decide (r.threads > 1024)

/-- The checks of R349 after the reads, in order; 0 when the task may run. -/
def kernelStatus (t : Task) (k : Nat) (l : Launch) (r : Run) : Nat :=
  if kernelBad t k l r then stBadDescriptor
  else if l.gx * l.gy * l.gz = 0 then 0
  else if r.csize > 16 || r.gx % r.cx != 0 || r.gy % r.cy != 0 || r.gz % r.cz != 0 then stClusterRejected
  else if r.perCore = 0 then stResourceRejected
  else if 14 * r.perCore < r.csize then stClusterRejected
  else 0

/-- KERNEL: a released kernel task is checked; its blocks are then offered for placement. A grid with a count of 0 is
done at once. -/
def doKernel (q i : Nat) (d : Dev) : Dev :=
  match d.working q i clsKernel with
  | none => d
  | some (p, t) =>
    if (d.run q i).isSome then d
    else if t.indirect && (match d.pconf p with | some c => !c.indirect | none => true) then
      d.finish p t stIndirectRefused 0 true
    else match d.cpRead p (d.fnOfQueue q) (t.body 0) 64 t.acct with
      | (d1, .wait) => d1
      | (d1, .fault) => d1.finish p t stFetchFault 0 true
      | (d1, .ok k) =>
        match d1.readLaunch p t with
        | (d2, none, .wait) => d2
        | (d2, none, _) => d2.finish p t stFetchFault 0 true
        | (d2, some l, _) =>
          let r := d2.mkRun p t k l
          let st := kernelStatus t k l r
          if st ≠ 0 then d2.finish p t st 0 true
          else if l.gx * l.gy * l.gz = 0 then d2.workDone t 0 0
          else
            let x := d2.part p
            { d2.setPart p { x with release := x.release + 1 } with runs := d2.runs ++ [r] }

def execKernel (q i : Nat) (s : State) : Host.Outcome State Fault Refusal := done s (doKernel q i s.dev)

end Sys2Proof.Machine
end

