-- ==== Sys2Proof/Machine/Tasks.lean ====
section
/-! DEFINITION. Doorbells, descriptor reads, fence polls, and the tasks that the quarter runs: NOP, QUEUE_CREATE,
QUEUE_DESTROY, PIN, UNPIN; the end of a task (11 R337-R363, 12 R366, R375-R378, 08 R276-R278). -/

namespace Sys2Proof.Machine

open Sys2Proof

/-! ## Doorbells -/

/-- DBL_PRODUCER (R337, R338). -/
def execDblProducer (source : DblSource) (page slot : Nat) (v : DWord) (s : State) : Host.Outcome State Fault Refusal :=
  match s.dev.bellTarget source page slot with
  | none => done s s.dev
  | some q => done s (s.dev.bellWrite q 0 v.toNat)

/-- BOOTSTRAP_CREATE: a write of DBL_BOOT_CFG (R340). -/
def execBootstrapCreate (source : DblSource) (page slot : Nat) (value : DWord) (s : State) : Host.Outcome State Fault Refusal :=
  match s.dev.bellTarget source page slot with
  | none => done s s.dev
  | some q => done s (s.dev.bellWrite q 0x28 value.toNat)

/-! ## Fetch and release -/

/-- DESCRIPTOR_READ: the next descriptor of a queue is read and goes to its cursor; a read that fails translation puts
the queue in ERROR (R334, R342). -/
def doDescriptorRead (q : Nat) (d : Dev) : Dev :=
  let x := d.queue q
  match d.partOfQueue q with
  | none => d
  | some p =>
    if d.fetches q && decide (x.fetched < x.producer) && decide (x.fetched < x.retired + 256) && decide (d.stage < 4) then
      let i := x.fetched
      -- a task that had completed before its instance was restored is not read again (14 R436)
      if x.ended.any (fun e => e.1 == i) then d.setQueue q { x with fetched := i + 1 } else
      match d.cpRead p (d.fnOfQueue q) (x.ringVa + 128 * (i % 2 ^ x.log2)) 128 with
      | (d1, .wait) => d1
      | (d1, .fault) =>
        let y := d1.queue q
        (d1.setQueue q { y with fetched := i + 1, ended := y.ended ++ [(i, false)] }).enterError p q i stFetchFault
      | (d1, .ok v) =>
        let y := d1.queue q
        let e := d1.setQueue q { y with fetched := i + 1 }
        ({ e with tasks := e.tasks ++ [{ q := q, i := i, desc := v }] } : Dev).pump p
    else d

def execDescriptorRead (q : Nat) (s : State) : Host.Outcome State Fault Refusal := done s (doDescriptorRead q s.dev)

/-- FENCE_POLL: the words of an unmet fence wait are read again (R355). [DEDUCED, log 24] -/
def doFencePoll (q cursor : Nat) (d : Dev) : Dev :=
  match d.partOfQueue q with
  | none => d
  | some p => if d.fetches q && decide (d.stage < 4) && (d.waitingHead q cursor).isSome then d.pump p else d

def execFencePoll (q cursor : Nat) (s : State) : Host.Outcome State Fault Refusal := done s (doFencePoll q cursor s.dev)

/-! ## NOP, QUEUE_CREATE, QUEUE_DESTROY -/

def Task.bodyZero (t : Task) (ks : List Nat) : Bool := ks.all (fun k => t.body k == 0)

/-- NOP: its body is 0 (R346). -/
def doTaskNop (q i : Nat) (d : Dev) : Dev :=
  match d.working q i 0x02 with
  | none => d
  | some (p, t) => if t.bodyZero [0, 1, 2, 3] then d.workDone t 0 0 else d.finish p t stBadDescriptor 0 true

def execTaskNop (q i : Nat) (s : State) : Host.Outcome State Fault Refusal := done s (doTaskNop q i s.dev)

/-- Whether a queue lies in the blocks of the function that owns another (R346). -/
def Dev.sameFn (d : Dev) (q target : Nat) : Bool :=
  decide (target < 32768) && (match d.fnOfBlock (target / 64) with | some fn => fn == d.fnOfQueue q | none => false)

/-- QUEUE_CREATE: its own fields, then those of the queue to be created, in order (R352). -/
def doQueueCreate (q i : Nat) (d : Dev) : Dev :=
  match d.working q i clsQueueCreate with
  | none => d
  | some (p, t) =>
    if t.body 3 ≠ 0 then d.finish p t stBadDescriptor 0 true
    else
      let target := t.aux16
      let w := t.body 2
      let x := d.queue target
      if !(d.sameFn q target && x.state == .free) then d.workDone t stQueueRange 0
      else
        let st := d.createStatus p (w / 2 ^ 43 == 0) (BitVec.ofNat 32 w) t.aux32 (t.body 0) (w / 2 ^ 32 % 256)
        if st ≠ 0 then d.workDone t st 0
        else
          (d.setQueue target (x.create (d.fnOfQueue q) (w / 2 ^ 42 % 2 == 1) (w / 2 ^ 40 % 4) t.aux32 (BitVec.ofNat 32 w) (t.body 0)
            (w / 2 ^ 32 % 256) (t.body 1))).workDone t 0 0

def execQueueCreate (q i : Nat) (s : State) : Host.Outcome State Fault Refusal := done s (doQueueCreate q i s.dev)

/-- The blocks of halted groups of a queue's tasks. -/
def Dev.haltedBlocks (d : Dev) (q : Nat) : List (Nat × Nat) :=
  ((d.groups.filter (fun x => x.2.q == q && (x.2.halted.isSome || x.2.stepping.isSome))).map (fun x => (coreOfKey x.1, x.2.block))).eraseDups

/-- Steps 1-3 of R377: the target stops, its unreleased tasks are squashed without record or signal, the blocks of its
halted groups are killed. -/
def doQueueDestroy (q i : Nat) (d : Dev) : Dev :=
  match d.working q i clsQueueDestroy with
  | none => d
  | some (p, t) =>
    if t.work ≠ .none then d
    else if t.aux16 ≠ 0 || !t.bodyZero [0, 1, 2, 3] then d.finish p t stBadDescriptor 0 true
    else
      let target := t.aux32
      let x := d.queue target
      if !d.sameFn q target || target == q || x.state == .free || x.state == .destroying then d.workDone t stQueueRange 0
      else
        let waiting := d.tasks.filter (fun y => y.q == target && y.timer.isNone)
        let n := (waiting.filter (fun y => y.state == .fetched)).length + (x.producer - x.fetched)
        let d1 := d.setQueue target { x with state := .destroying, squashed := (x.squashed + n) % 2 ^ 32, fetched := x.producer }
        let d2 : Dev := { d1 with tasks := d1.tasks.filter (fun (y : Task) => !(y.q == target && y.timer.isNone && y.state == .fetched)) }
        let bs := d2.haltedBlocks target
        let d3 := bs.foldl (fun (e : Dev) b => e.killBlock b.1 b.2) d2
        d3.setTask { t with work := .destroy target n 0 0 bs.length }

def execQueueDestroy (q i : Nat) (s : State) : Host.Outcome State Fault Refusal := done s (doQueueDestroy q i s.dev)

/-- DESTROY_DRAIN_COMPLETE: every released task of the target has drained; its entry becomes FREE with every field 0,
and the destroy task, when it still runs, is done with the counts of R378 (R377 steps 5 and 6). [DEDUCED, log 25] -/
def doDestroyDrainComplete (target : Nat) (d : Dev) : Dev :=
  let x := d.queue target
  match d.partOfQueue target with
  | none => d
  | some p =>
    if x.state = .destroying && d.partRuns p && !d.tasks.any (fun t => t.q == target) then
      let d1 := d.setQueue target { bootRing := x.bootRing, bootCfg := x.bootCfg }
      { d1 with tasks := d1.tasks.map (fun (t : Task) => match t.work with
          | .destroy tq sq dr tmo killed =>
            if tq = target then { t with state := .done 0 (sq % 2 ^ 24 + dr % 2 ^ 9 * 2 ^ 24 + tmo % 2 ^ 9 * 2 ^ 33 + killed % 2 ^ 22 * 2 ^ 42), work := .none }
            else t
          | _ => t) }
    else d

def execDestroyDrainComplete (target : Nat) (s : State) : Host.Outcome State Fault Refusal := done s (doDestroyDrainComplete target s.dev)

/-! ## PIN and UNPIN (08 R276-R278) -/

/-- What the translation of a range gives: pieces of at most 4 KiB, each with its place, or what stopped it. -/
def Dev.rangeFor (d : Dev) (p fn : Nat) (write : Bool) : Nat → Nat → Nat → Dev × Cp × List (Nat × Xl × Nat)
  | 0, _, _ => (d, .ok 0, [])
  | _, _, 0 => (d, .ok 0, [])
  | fuel + 1, va, n =>
    let k := min n (4096 - va % 4096)
    match d.translate p fn va write with
    | (d1, .wait) => (d1, .wait, [])
    | (d1, .fail) => (d1, .fault, [])
    | (d1, .bell _ _) => (d1, .fault, [])
    | (d1, x) =>
      match Dev.rangeFor d1 p fn write fuel (va + k) (n - k) with
      | (d2, .ok v, rest) => (d2, .ok v, (va, x, k) :: rest)
      | r => r

def Dev.range (d : Dev) (p fn : Nat) (write : Bool) (va n : Nat) : Dev × Cp × List (Nat × Xl × Nat) :=
  d.rangeFor p fn write (n / 4096 + 2) va n

/-- The lines of a range that is device memory whole; none when some of it is not. -/
def deviceLines : List (Nat × Xl × Nat) → Option (List Nat)
  | [] => some []
  | (_, .dev pa, n) :: rest => (deviceLines rest).map (fun l => (List.range (n / 128)).map (fun k => pa / 128 + k) ++ l)
  | _ => none

def pinQuotaStatus : Nat := 0x0061
def pinRangeStatus : Nat := 0x0062

/-- Whether a line is pinned. -/
def Dev.isPinned (d : Dev) (p n : Nat) : Bool :=
  match d.place p ⟨false, n⟩ with
  | none => false
  | some (s, set) => match (d.slice s).findWay set (d.homeWays p) ⟨false, n⟩ with
    | some (_, w) => w.pinned
    | none => false

/-- Pinned lines of a set. -/
def Slice.pinnedIn (x : Slice) (set : Nat) : Nat := (x.ways.filter (fun w => w.1 / 16 == set && w.2.pinned)).length

/-- Whether pinning the lines would exceed the quota of some set (R276). -/
def Dev.pinExceeds (d : Dev) (p : Nat) (lines : List Nat) : Bool :=
  let quota := match d.pconf p with | some c => c.pinWays | none => 0
  let new := (lines.eraseDups.filter (fun n => !d.isPinned p n)).filterMap (fun n => d.place p ⟨false, n⟩)
  new.any (fun x => decide ((d.slice x.1).pinnedIn x.2 + (new.filter (fun y => y == x)).length > quota))

/-- Brings a line into its home slice whole and pins it; false when it must wait for the line. -/
def Dev.pinLine (d : Dev) (p n : Nat) : Dev × Bool :=
  let l : Line := ⟨false, n⟩
  match d.place p l with
  | none => (d, true)
  | some (s, set) =>
    let x := d.slice s
    let fetch := fun (e : Dev) =>
      let nd : Needs := { sectors := 15#4, excl := false }
      match e.prepare p s set l nd with
      | .again d1 => match d1.prepare p s set l nd with
        | .again d2 => match d2.prepare p s set l nd with
          | .again d3 => d3
          | _ => d2
        | _ => d1
      | _ => e
    match x.findWay set (d.homeWays p) l with
    | some (k, w) =>
      if w.pinned then (d, true)
      else if w.valid = 15 then (d.setSlice s (x.setWay k { w with pinned := true }), true)
      else if (x.awaitOf l).isSome || x.isOpen l then (d, false)
      else (fetch d, false)
    | none =>
      if (x.awaitOf l).isSome then (d, false)
      else if x.isOpen l then
        -- an open line without a way gets one with red_open set; its shadow stays where it is (09 R298)
        match x.choose set (d.homeWays p) with
        | .free k => (d.setSlice s { x.setWay k { line := l, redOpen := true, pinned := true, used := x.clock } with clock := x.clock + 1 }, true)
        | .victim k w => ((d.evictWay p s k w).getD d, false)
        | .wait => (d, false)
      else (fetch d, false)

/-- Pins lines in order from where the task stands. -/
def Dev.pinLines (d : Dev) (p : Nat) : List Nat → Dev × Bool
  | [] => (d, true)
  | n :: rest => match d.pinLine p n with
    | (d1, true) => Dev.pinLines d1 p rest
    | (d1, false) => match Dev.pinLines d1 p rest with
      | (d2, _) => (d2, false)

/-- The range of a PIN or UNPIN: a wait, PIN_RANGE, or its lines. -/
def Dev.pinRange (d : Dev) (p : Nat) (t : Task) : Dev × Cp × List Nat :=
  let va := t.body 0
  let n := t.body 1
  if va % 128 ≠ 0 ∨ n % 128 ≠ 0 then (d, .fault, [])
  else match d.range p (d.fnOfQueue t.q) false va n with
    | (d1, .ok _, ps) => match deviceLines ps with
      | some ls => (d1, .ok 0, ls)
      | none => (d1, .fault, [])
    | (d1, r, _) => (d1, r, [])

/-- PIN: the quota is checked once over the whole range; the task is done when every line is resident and pinned. -/
def doPin (q i : Nat) (d : Dev) : Dev :=
  match d.working q i 0x42 with
  | none => d
  | some (p, t) =>
    if t.aux16 ≠ 0 ∨ t.aux32 ≠ 0 ∨ t.bodyZero [2, 3] = false then d.finish p t stBadDescriptor 0 true
    else match d.pinRange p t with
      | (d1, .wait, _) => d1
      | (d1, .fault, _) => d1.workDone t pinRangeStatus 0
      | (d1, .ok _, ls) =>
        let started := match t.work with | .moved _ n => some n | _ => none
        if started.isNone && d1.pinExceeds p ls then d1.workDone t pinQuotaStatus 0
        else
          let total := started.getD (ls.eraseDups.filter (fun n => !d1.isPinned p n)).length
          match d1.pinLines p ls with
          | (d2, true) => d2.workDone t 0 total
          | (d2, false) => d2.setTask { t with work := .moved 0 total }

def execPin (q i : Nat) (s : State) : Host.Outcome State Fault Refusal := done s (doPin q i s.dev)

/-- Clears pinned on a line. -/
def Dev.unpinLine (d : Dev) (p n : Nat) : Dev :=
  match d.place p ⟨false, n⟩ with
  | none => d
  | some (s, set) => match (d.slice s).findWay set (d.homeWays p) ⟨false, n⟩ with
    | some (k, w) => d.setSlice s ((d.slice s).setWay k { w with pinned := false })
    | none => d

/-- UNPIN (R277). -/
def doUnpin (q i : Nat) (d : Dev) : Dev :=
  match d.working q i 0x43 with
  | none => d
  | some (p, t) =>
    if t.aux16 ≠ 0 ∨ t.aux32 ≠ 0 ∨ t.bodyZero [2, 3] = false then d.finish p t stBadDescriptor 0 true
    else match d.pinRange p t with
      | (d1, .wait, _) => d1
      | (d1, .fault, _) => d1.workDone t pinRangeStatus 0
      | (d1, .ok _, ls) =>
        let n := (ls.eraseDups.filter (fun n => d1.isPinned p n)).length
        (ls.foldl (fun (e : Dev) x => e.unpinLine p x) d1).workDone t 0 n

def execUnpin (q i : Nat) (s : State) : Host.Outcome State Fault Refusal := done s (doUnpin q i s.dev)

/-! ## The end of a task -/

/-- Whether every access of a task has been performed (R244, R303). -/
def Dev.quiet (d : Dev) (q i : Nat) : Bool :=
  d.cores.all (fun x => x.2.outs.all (fun o => !(o.q == q && o.i == i)) && x.2.copies.all (fun o => !(o.q == q && o.i == i)))
    && d.engOuts.all (fun o => !(o.q == q && o.i == i))

/-- The status and info with which the work of a task is over; none while it runs. -/
def Dev.ending (d : Dev) (t : Task) : Option (Nat × Nat) :=
  match t.state with
  | .done st info => if d.quiet t.q t.i || st != 0 then some (st, info) else none
  | .fetched => none
  | .released => match d.run t.q t.i with
    | some r =>
      if r.live = 0 && !r.offers && d.quiet t.q t.i then some (if r.killed then stDebugKilled else 0, min r.done (2 ^ 64 - 1)) else none
    | none => none

/-- TASK_DONE: signals, record and retirement of a task whose work is over (R358); then the cursors go on. -/
def doTaskDone (q i : Nat) (d : Dev) : Dev :=
  match d.task q i, d.partOfQueue q with
  | some t, some p =>
    if d.partRuns p && d.coresIssue then
      match d.ending t with
      | some (st, info) => (d.finish p t st info false).pump p
      | none => d
    else d
  | _, _ => d

def execTaskDone (q i : Nat) (s : State) : Host.Outcome State Fault Refusal := done s (doTaskDone q i s.dev)

/-- The effective timeout of a queue's tasks in µs (R364). -/
def Dev.timeoutOf (d : Dev) (q : Nat) : Nat := min (d.queue q).timeout d.conf.timeoutLimit

/-- What a squashed task had done, for its record (R352, R360). -/
def Dev.infoSoFar (d : Dev) (t : Task) : Nat :=
  match t.work with
  | .moved _ n => if t.cls = 0x42 then 0 else n
  | .transfer _ _ n _ => n
  | _ => match d.run t.q t.i with
    | some r => min r.done (2 ^ 64 - 1)
    | none => 0

/-- The squash of a task whose count has reached its timeout (R366): its placed blocks are killed without a record. [DEDUCED, log 25] -/
def Dev.expire (d : Dev) (p : Nat) (t : Task) : Dev :=
  let d1 := d.killTask t.q t.i
  let info := d1.infoSoFar t
  let x := d1.queue t.q
  ((d1.setQueue t.q { x with squashed := (x.squashed + 1) % 2 ^ 32 }).finish p t stTimeout info false).pump p

/-- Whether a task's timeout has expired in a running partition. -/
def Dev.expired (d : Dev) (q i : Nat) : Option (Nat × Task) :=
  match d.task q i, d.partOfQueue q with
  | some t, some p =>
    if d.partRuns p && t.head && decide (t.count ≥ d.timeoutOf q) && decide (d.stage < 3)
      && (match t.state with | .done _ _ => false | _ => true) then some (p, t) else none
  | _, _ => none

end Sys2Proof.Machine
end

