-- ==== Sys2Proof/Machine/Seif.lean ====
section
/-! DEFINITION. The Seif ports: training, flits, retry, credits, transit; puts and gets (15 R441-R456, R465). -/

namespace Sys2Proof.Machine

open Sys2Proof

/-! ## Status codes (R456) -/

def stPeerAbort : Nat := 0x00A1
def stRemoteLost : Nat := 0x00A2
def stRemoteFault : Nat := 0x00A3
def stUnreachable : Nat := 0x00A4
def stLinkDown : Nat := 0x00A5

/-! ## Ends of transfers and collectives -/

/-- The released task of a transfer handle. -/
def Dev.transferTask (d : Dev) (h : Nat) : Option Task :=
  d.tasks.find? (fun t => t.state == .released && (match t.work with | .transfer x _ _ _ => x == h | _ => false))

/-- A transfer stops with a status. -/
def Dev.stopTransfer (d : Dev) (t : Task) (st : Nat) : Dev := d.workDone t st (d.infoSoFar t)

/-- A collective stops with a status; its ranks hear of it unless one of them has aborted it. [DEDUCED, log 37] -/
def Dev.stopColl (d : Dev) (c : Coll) (st : Nat) : Dev :=
  let d1 : Dev := { d with seif := { d.seif with colls := d.seif.colls.filter (fun x => !(x.q == c.q && x.i == c.i)) } }
  let d2 := if st = stPeerAbort then d1 else d1.abortColl c
  match d2.task c.q c.i with
  | some t => d2.workDone t st c.total
  | none => d2

/-- The collective that a message belongs to, by the low 13 bits of coll_seq that its handle holds. -/
def Dev.collByHandle (d : Dev) (p h : Nat) : Option Coll := d.seif.colls.find? (fun c => c.part == p && c.seq % 2 ^ 13 == h)

/-- The task whose message a port has lost ends with SEIF_LINK_DOWN (R465). -/
def Dev.lostMessage (d : Dev) (m : SeifMsg) : Dev :=
  if m.srcModule ≠ d.conf.moduleId then d
  else if m.type = mtPutData ∨ m.type = mtGetReq ∨ m.type = mtSignal then
    match d.transferTask m.handle with
    | some t => d.stopTransfer t stLinkDown
    | none => d
  else if m.type = mtReady ∨ m.type = mtCollData then
    match d.collByHandle m.spart m.handle with
    | some c => d.stopColl c stLinkDown
    | none => d
  else d

/-- A port goes DOWN: what it had not had acknowledged is lost (R465). -/
def Dev.portDown (d : Dev) (n : Nat) : Dev :=
  let x := d.port n
  if x.state = .down ∨ x.state = .disabled then d
  else
    let gone := x.retry.flatMap (fun f => f.msgs) ++ x.txq
    let d1 := (d.setPort n { x with state := .down, retraining := false, lanes := 0, retry := [], txq := [], ctrlUsed := 0, bulkUsed := 0
                                    ctrlBack := 0, bulkBack := 0, downAt := d.time }).seifEntry n
    gone.foldl (fun (e : Dev) m => e.lostMessage m) d1

/-! ## Training and retrains (R444-R446) -/

/-- The lanes that a port uses of those that are good. -/
def chooseLanes (good : BitVec 8) : BitVec 8 :=
  if good = 0xFF then 0xFF
  else if good &&& 0x0F = 0x0F then 0x0F
  else if good &&& 0xF0 = 0xF0 then 0xF0
  else if good &&& 0x03 = 0x03 then 0x03
  else if good &&& 0x0C = 0x0C then 0x0C
  else if good &&& 0x30 = 0x30 then 0x30
  else if good &&& 0xC0 = 0xC0 then 0xC0
  else 0

/-- Whether the peer is the one that port_map expects, with version 1 (R442, R444). -/
def peerExpected (entry : Word) (peer : SeifPeer) : Bool :=
  peer.version == 1 && (entry.getLsbD 13 || (entry.toNat / 2 % 4096 == peer.modId && entry.toNat / 2 ^ 14 % 16 == peer.port))

/-- The lanes that carry data once trained lanes are chosen: half of them while a sag stage narrows the ports. -/
def Dev.runLanes (d : Dev) (l : BitVec 8) : BitVec 8 := if d.stage ≥ 1 then halfLanes l else l

/-- SEIF_TRAINING: a port that trains, or has been DOWN for 1 s (R444, R445). [DEDUCED, log 34] -/
def doSeifTraining (n : Nat) (peer : SeifPeer) (d : Dev) : Dev :=
  let x := d.port n
  let due := (x.state == .training && !x.retraining) || (x.state == .down && decide (d.time ≥ x.downAt + 1000000000))
  if !(d.power.rails.seif && d.portEnabled n && due) then d
  else
    let l := chooseLanes (peer.good &&& ~~~x.lost)
    if !peer.present || l == 0 then (d.setPort n { x with state := .down, lanes := 0, downAt := d.time }).seifEntry n
    else
      let y := { x with peerModule := peer.modId, peerPort := peer.port }
      if !peerExpected (d.portEntry n) peer then (d.setPort n { y with state := .mismatch, lanes := 0 }).seifEntry n
      else (d.setPort n { y with state := .up, lanes := d.runLanes l, trained := l, txSeq := 0, rxSeq := 0, retry := [], oldResent := 0
                                 ctrlUsed := 0, bulkUsed := 0, ctrlBack := 0, bulkBack := 0
                                 ctrlIn := x.ctrlIn.map (fun m => { m with last := false })
                                 bulkIn := x.bulkIn.map (fun m => { m with last := false }) }).seifEntry n

def execSeifTraining (port : Nat) (peer : SeifPeer) (s : State) : Host.Outcome State Fault Refusal := done s (doSeifTraining port peer s.dev)

/-- A retrain is called (R446). -/
def Dev.callRetrain (d : Dev) (n : Nat) : Dev :=
  let x := d.port n
  (d.setPort n { x with state := .training, retraining := true, lanes := 0, retrains := min (x.retrains + 1) 0xFFFF }).seifEntry n

/-- Sends every flit of the retry buffer again. -/
def Port.resendAll (x : Port) : Port :=
  let y := x.retry.foldl (fun (y : Port) f => (y.nullDue).emit 0 f.seq f.bulk f.msgs) x
  { y with resent := x.resent + x.retry.length }

/-- RETRAIN: steps 2-5 again; the retry buffer is kept and resent. [DEDUCED, log 34] -/
def doRetrain (n : Nat) (peer : SeifPeer) (d : Dev) : Dev :=
  let x0 := d.port n
  if !(x0.retraining || x0.state == .up) then d
  else
    let d1 := if x0.retraining then d else d.callRetrain n
    let x := d1.port n
    let lost := x.lost ||| ~~~peer.good
    let l := chooseLanes (peer.good &&& ~~~lost)
    if !peer.present || l == 0 then d1.portDown n
    else if !peerExpected (d1.portEntry n) peer then
      let d2 := d1.portDown n
      (d2.setPort n { d2.port n with state := .mismatch, peerModule := peer.modId, peerPort := peer.port }).seifEntry n
    else
      let y := ({ x with state := .up, retraining := false, lost := lost, lanes := d.runLanes l, trained := l, oldResent := 0 } : Port).resendAll
      (d1.setPort n y.pump).seifEntry n

def execRetrain (port : Nat) (peer : SeifPeer) (s : State) : Host.Outcome State Fault Refusal := done s (doRetrain port peer s.dev)

/-- LANE_LOSS_OF_LOCK (R446). -/
def doLaneLossOfLock (n lane : Nat) (d : Dev) : Dev :=
  let x := d.port n
  if x.state = .up ∧ lane < 8 ∧ x.lanes.getLsbD lane then d.callRetrain n else d

def execLaneLossOfLock (port lane : Nat) (s : State) : Host.Outcome State Fault Refusal := done s (doLaneLossOfLock port lane s.dev)

/-- LANE_CHANGE: the peer halves the width, or returns to the trained one (R446). -/
def doLaneChange (n lanes : Nat) (d : Dev) : Dev :=
  let x := d.port n
  let l := BitVec.ofNat 8 lanes
  if x.state = .up ∧ (l = halfLanes x.lanes ∨ l = x.trained) then d.setLanes n l else d

def execLaneChange (port lanes : Nat) (s : State) : Host.Outcome State Fault Refusal := done s (doLaneChange port lanes s.dev)

/-! ## Flits (R447-R450) -/

/-- Takes an acknowledgement and returned credits. -/
def Port.take (x : Port) (ack ctrl bulk : Nat) : Port :=
  let covered := match x.retry with
    | [] => 0
    | f :: _ => let k := (ack + 4096 - f.seq) % 4096; if k < x.retry.length then k + 1 else 0
  { x with retry := x.retry.drop covered, oldResent := if covered > 0 then 0 else x.oldResent
           ctrlUsed := x.ctrlUsed - ctrl, bulkUsed := x.bulkUsed - bulk }

/-- A message in transit goes on by any port of its route entry (R443, R451). [DEDUCED, log 34] -/
def Dev.forward (d : Dev) (n : Nat) (m : SeifMsg) : Dev :=
  let x := d.port n
  if m.hops = 0 then d.setPort n { x with hopDrops := (x.hopDrops + 1) % 2 ^ 32 }
  else match d.seifSend none 0xFFFF { m with hops := m.hops - 1 } with
    | some e => e
    | none => d.setPort n { x with misroutes := (x.misroutes + 1) % 2 ^ 32 }

/-- The partition that a message addresses: an instance's own, else the one named (R454). -/
def Dev.addressed (d : Dev) (m : SeifMsg) : Option Nat := if m.function < 0x100 then d.partOfLode (m.function / 64) else some m.dpart

/-- The messages of an accepted flit: transit goes on, misroutes are dropped, the rest waits to be performed. -/
def Dev.deliverSeif (d : Dev) (n : Nat) (bulk : Bool) (ms : List SeifMsg) : Dev :=
  let here := fun (m : SeifMsg) => m.dstModule == d.conf.moduleId
  let mine := ms.filter (fun m => here m && (d.addressed m).isSome && d.addressed m == d.partOfPort n)
  let stray := (ms.filter here).length - mine.length
  let x := d.port n
  let queued : List InMsg := mine.zipIdx.map (fun y => { msg := y.1, last := y.2 + 1 == mine.length })
  let x1 := { x with misroutes := (x.misroutes + stray) % 2 ^ 32 }
  let x2 := if bulk then { x1 with bulkIn := x1.bulkIn ++ queued, bulkBack := if mine.isEmpty then x1.bulkBack + 1 else x1.bulkBack }
    else { x1 with ctrlIn := x1.ctrlIn ++ queued, ctrlBack := if mine.isEmpty then x1.ctrlBack + 1 else x1.ctrlBack }
  (ms.filter (fun m => !here m)).foldl (fun (e : Dev) m => e.forward n m) (d.setPort n x2)

/-- An armed SEIF_CRC injection damages the next flit of its port (17 R507). [DEDUCED, log 45] -/
def Dev.seifInjection (before d : Dev) : Dev :=
  match d.inj.aim with
  | some (6, n) =>
    if (d.port n).wire.length > (before.port n).wire.length then (d.setPort n (d.port n).damageLast).fireInjection else d
  | _ => d

/-- PAYLOAD: accepted in order, or discarded with a NAK (R449). [DEDUCED, log 34] -/
def doPayload (n : Nat) (f : SeifFlit) (d : Dev) : Dev :=
  let x := d.port n
  if x.state ≠ .up then d
  else if !f.crcOk then
    (d.setPort n (x.emit 2 0 false [])).maskedReport
      { time := d.time, kind := 2, detector := 6, unit := n, location := 8
        detail := BitVec.ofNat 64 (if x.burstAt / 1000000000 = d.time / 1000000000 then x.burst else 0) }
  else
    let y := (x.take f.ack f.ctrlCredits f.bulkCredits).pump
    if f.seq ≠ y.rxSeq then d.setPort n (y.emit 2 0 false [])
    else (d.setPort n { y with rxSeq := (y.rxSeq + 1) % 4096 }).deliverSeif n f.bulk f.msgs

def execPayload (port : Nat) (flit : SeifFlit) (s : State) : Host.Outcome State Fault Refusal := done s (s.dev.seifInjection (doPayload port flit s.dev))

/-- NAK: every flit from ack + 1 is resent; a retrain is called after 16 times, or 1,024 flits in 1 ms (R446, R449). -/
def doNak (n ack : Nat) (d : Dev) : Dev :=
  let x := d.port n
  if x.state ≠ .up then d
  else
    let y := x.take ack 0 0
    let k := y.retry.length
    let burst := if d.time < y.burstAt + 1000000 then y.burst + k else k
    let burstAt := if d.time < y.burstAt + 1000000 then y.burstAt else d.time
    let z : Port := { y.resendAll with oldResent := if k > 0 then y.oldResent + 1 else 0, burst := burst, burstAt := burstAt }
    let d1 := d.setPort n z.pump
    if z.oldResent ≥ 16 ∨ burst > 1024 then d1.callRetrain n else d1

def execNak (port ack : Nat) (s : State) : Host.Outcome State Fault Refusal := done s (s.dev.seifInjection (doNak port ack s.dev))

/-- NULL: acknowledgement and credits (R447). -/
def doNullFlit (n ack ctrl bulk : Nat) (d : Dev) : Dev :=
  let x := d.port n
  if x.state = .up then d.setPort n (x.take ack ctrl bulk).pump else d

def execNullFlit (port ack ctrlCredits bulkCredits : Nat) (s : State) : Host.Outcome State Fault Refusal :=
  done s (doNullFlit port ack ctrlCredits bulkCredits s.dev)

/-- NULL_TIMER: nothing has been sent for 100 ns (R449). -/
def doNullTimer (n : Nat) (d : Dev) : Dev :=
  let x := d.port n
  if x.state = .up then d.setPort n (x.emit 1 0 false []) else d

def execNullTimer (port : Nat) (s : State) : Host.Outcome State Fault Refusal := done s (s.dev.seifInjection (doNullTimer port s.dev))

/-! ## Messages for the module -/

/-- The oldest waiting message of a port's buffer when it has the type. -/
def Dev.peekIn (d : Dev) (n : Nat) (bulk : Bool) (type : Nat) : Option SeifMsg :=
  let x := d.port n
  match (if bulk then x.bulkIn else x.ctrlIn) with
  | [] => none
  | m :: _ => if m.msg.type = type ∧ d.live then some m.msg else none

/-- That message has been performed; the last of its flit returns a credit. [DEDUCED, log 34] -/
def Dev.dropIn (d : Dev) (n : Nat) (bulk : Bool) : Dev :=
  let x := d.port n
  if bulk then match x.bulkIn with
    | [] => d
    | m :: ms => d.setPort n { x with bulkIn := ms, bulkBack := if m.last then x.bulkBack + 1 else x.bulkBack }
  else match x.ctrlIn with
    | [] => d
    | m :: ms => d.setPort n { x with ctrlIn := ms, ctrlBack := if m.last then x.ctrlBack + 1 else x.ctrlBack }

/-- The function that a message acts for. -/
def msgFn (p : Nat) (m : SeifMsg) : Nat := if m.function < 0x100 then m.function else pf0 p

/-- Whether the target of a message takes it (R454, R456, R465). [DEDUCED, log 36] -/
def Dev.targetTakes (d : Dev) (p : Nat) (m : SeifMsg) : Bool :=
  d.partRuns p && (decide (m.function ≥ 0x100) || ((d.slot m.function).isSome && (match (d.inst m.function).state with
    | .running | .freezing | .frozen => true
    | _ => false)))

/-- An answer to a message, from partition p. -/
def Dev.answerSeif (d : Dev) (p : Nat) (m : SeifMsg) (type : Nat) (w1 : DWord) : Dev :=
  (d.seifSend (some p) 0xFFFF { dstModule := m.srcModule, dpart := if m.function < 0x100 then 0 else m.spart, srcModule := d.conf.moduleId
                                spart := p, type := type, function := m.function, handle := m.handle, w1 := w1 }).getD d

/-- A write of `n` bytes at a device virtual address, line by line. -/
def Dev.cpWriteSpan (d : Dev) (p fn : Nat) (acct : Option Nat) : Nat → Nat → Nat → Nat → Dev × Cp
  | 0, _, _, _ => (d, .ok 0)
  | _, _, 0, _ => (d, .ok 0)
  | fuel + 1, va, n, v =>
    let k := lineSpan va n
    match d.cpWrite p fn va k (v % 2 ^ (8 * k)) acct with
    | (d1, .ok _) => Dev.cpWriteSpan d1 p fn acct fuel (va + k) (n - k) (v >>> (8 * k))
    | r => r

def Dev.cpWriteAll (d : Dev) (p fn va n v : Nat) (acct : Option Nat := none) : Dev × Cp := d.cpWriteSpan p fn acct (n / 128 + 2) va n v

/-- Performs the oldest message of a type: `f` answers the device and whether it has been performed. A target that does
not take it answers REMOTE_LOST. -/
def Dev.perform (d : Dev) (n : Nat) (bulk : Bool) (type : Nat) (f : Dev → Nat → SeifMsg → Dev × Bool) : Dev :=
  match d.peekIn n bulk type, d.partOfPort n with
  | some m, some p =>
    let out := if !d.targetTakes p m then (d.answerSeif p m mtNack (BitVec.ofNat 64 stRemoteLost), true)
      else if d.stage ≥ 4 then (d, false) else f d p m
    d.seifInjection (if out.2 then out.1.dropIn n bulk else out.1)
  | _, _ => d

/-- Takes the oldest message of a type that answers a request of this module. -/
def Dev.accept (d : Dev) (n : Nat) (bulk : Bool) (type : Nat) (f : Dev → Nat → SeifMsg → Dev × Bool) : Dev :=
  match d.peekIn n bulk type, d.partOfPort n with
  | some m, some p =>
    let out := f d p m
    d.seifInjection (if out.2 then out.1.dropIn n bulk else out.1)
  | _, _ => d

/-- The address of a message. -/
def msgVa (m : SeifMsg) : Nat := m.w1.toNat % 2 ^ 56

/-- PUT_DATA: written as an RLX store at its home, then acknowledged (R455). -/
def doPutData (n : Nat) (d : Dev) : Dev :=
  d.perform n true mtPutData (fun e p m =>
    match e.cpWriteAll p (msgFn p m) (msgVa m) (16 * m.dlen) (ofBytes m.data) with
    | (e1, .ok _) => (e1.answerSeif p m mtPutAck 1, true)
    | (e1, .wait) => (e1, false)
    | (e1, .fault) => (e1.answerSeif p m mtNack (BitVec.ofNat 64 stRemoteFault), true))

def execPutData (port : Nat) (s : State) : Host.Outcome State Fault Refusal := done s (doPutData port s.dev)

/-- The messages of data that answer a GET_REQ: address and bytes. -/
def Dev.getPieces (d : Dev) (p fn size : Nat) : Nat → Nat → Dev × Cp × List (Nat × Nat)
  | 0, _ => (d, .ok 0, [])
  | k + 1, va =>
    match d.cpRead p fn va size with
    | (d1, .ok v) => match Dev.getPieces d1 p fn size k (va + size) with
      | (d2, .ok w, rest) => (d2, .ok w, (va, v) :: rest)
      | r => r
    | (d1, r) => (d1, r, [])

/-- GET_REQ: the data wanted is read and sent; dlen names its length in each message, 0 for the most (R451, R455). [DEDUCED, log 36] -/
def doGetReq (n : Nat) (d : Dev) : Dev :=
  d.perform n false mtGetReq (fun e p m =>
    let size := if m.dlen = 0 then 224 else 16 * m.dlen
    match e.getPieces p (msgFn p m) size (m.w1.toNat / 2 ^ 56 + 1) (msgVa m) with
    | (e1, .ok _, ps) => (ps.foldl (fun (f : Dev) x =>
        (f.seifSend (some p) 0xFFFF { dstModule := m.srcModule, dpart := if m.function < 0x100 then 0 else m.spart, srcModule := f.conf.moduleId
                                      spart := p, type := mtGetData, function := m.function, handle := m.handle
                                      w1 := BitVec.ofNat 64 x.1, dlen := size / 16, data := toBytes x.2 size }).getD f) e1, true)
    | (e1, .wait, _) => (e1, false)
    | (e1, .fault, _) => (e1.answerSeif p m mtNack (BitVec.ofNat 64 stRemoteFault), true))

def execGetReq (port : Nat) (s : State) : Host.Outcome State Fault Refusal := done s (doGetReq port s.dev)

/-- SIGNAL: performed at its fence word, then acknowledged (R455). -/
def doSignal (n : Nat) (d : Dev) : Dev :=
  d.perform n false mtSignal (fun e p m =>
    match e.signal p (msgFn p m) (msgVa m) m.operand.toNat m.opMax with
    | (e1, .ok _) => (e1.answerSeif p m mtSignalAck 0, true)
    | (e1, .wait) => (e1, false)
    | (e1, .fault) => (e1.answerSeif p m mtNack (BitVec.ofNat 64 stRemoteFault), true))

def execSignal (port : Nat) (s : State) : Host.Outcome State Fault Refusal := done s (doSignal port s.dev)

/-! ## PUT and GET (R453-R456) -/

def clsPut : Nat := 0x18
def clsGet : Nat := 0x19

/-- Target module and partition of a PUT or GET, and its length. -/
def Task.module (t : Task) : Nat := t.aux16 % 4096
def Task.target (t : Task) : Nat := t.aux16 / 4096 % 4
def Task.bytesLen (t : Task) : Nat := t.body 2

/-- The fields of R453 and R454. [DEDUCED, log 36] -/
def Dev.transferOk (d : Dev) (t : Task) : Bool :=
  t.module != d.conf.moduleId && (if t.cls = clsPut then t.aux16 / 2 ^ 14 % 2 == 0 else t.aux16 / 2 ^ 14 == 0)
    && t.aux32 == 0 && t.body 3 == 0 && t.body 0 % 16 == 0 && t.body 1 % 16 == 0 && t.bytesLen % 16 == 0
    && decide (16 ≤ t.bytesLen) && decide (t.bytesLen ≤ 2 ^ 48) && (decide (d.fnOfQueue t.q ≥ 0x100) || t.target == 0)

/-- A message of a transfer. -/
def Dev.transferMsg (d : Dev) (p : Nat) (t : Task) (h type : Nat) (w1 : Nat) : SeifMsg :=
  { dstModule := t.module, dpart := t.target, srcModule := d.conf.moduleId, spart := p, type := type
    function := fnField (d.fnOfQueue t.q), handle := h, w1 := BitVec.ofNat 64 w1 }

/-- How a send of a transfer may go: no port, every port has messages waiting, or one can send. -/
def Dev.portReady (d : Dev) (p module : Nat) : Option Bool :=
  match d.portsTo (some p) 0xFFFF module with
  | [] => none
  | ns => some (ns.any (fun n => (d.port n).txq.isEmpty))

/-- A new handle, in use by no transfer. -/
def Dev.takeHandle (d : Dev) : Nat × Dev :=
  let h := ((List.range 8192).find? (fun k => (d.transferTask ((d.seif.handle + k) % 8192)).isNone)).getD 0
  let n := (d.seif.handle + h) % 8192
  (n, { d with seif := { d.seif with handle := (n + 1) % 8192 } })

/-- Sends PUT_DATA messages from byte `sent` on, while source lines and a port allow it. -/
def Dev.putFor (d : Dev) (p : Nat) (t : Task) (h : Nat) : Nat → Nat → Dev × Nat × Nat
  | 0, sent => (d, sent, 0)
  | fuel + 1, sent =>
    if sent ≥ t.bytesLen then (d, sent, 0)
    else match d.portReady p t.module with
      | none => (d, sent, stUnreachable)
      | some false => (d, sent, 0)
      | some true =>
        let k := min 224 (t.bytesLen - sent)
        match d.cpRead p (d.fnOfQueue t.q) (t.body 0 + sent) k t.acct with
        | (d1, .wait) => (d1, sent, 0)
        | (d1, .fault) => (d1, sent, stFetchFault)
        | (d1, .ok v) =>
          match d1.seifSend (some p) 0xFFFF { d1.transferMsg p t h mtPutData (t.body 1 + sent) with dlen := k / 16, data := toBytes v k } with
          | some d2 => Dev.putFor d2 p t h fuel (sent + k)
          | none => (d1, sent, stUnreachable)

/-- Sends GET_REQ messages for the bytes not yet asked for. [DEDUCED, log 36] -/
def Dev.getFor (d : Dev) (p : Nat) (t : Task) (h : Nat) : Nat → Nat → Dev × Nat × Nat
  | 0, sent => (d, sent, 0)
  | fuel + 1, sent =>
    if sent ≥ t.bytesLen then (d, sent, 0)
    else match d.portReady p t.module with
      | none => (d, sent, stUnreachable)
      | some false => (d, sent, 0)
      | some true =>
        let left := t.bytesLen - sent
        let size := min 224 left
        let count := min 256 (left / size)
        match d.seifSend (some p) 0xFFFF { d.transferMsg p t h mtGetReq ((t.body 0 + sent) % 2 ^ 56 + (count - 1) * 2 ^ 56) with dlen := size / 16 } with
        | some d1 => Dev.getFor d1 p t h fuel (sent + count * size)
        | none => (d, sent, stUnreachable)

/-- A PUT or GET takes its handle at its first command and sends what it can at each. -/
def Dev.seifTransfer (d : Dev) (q i cls : Nat) : Dev :=
  match d.working q i cls with
  | none => d
  | some (p, t) =>
    let go := fun (e : Dev) (t : Task) => match t.work with
      | .transfer h sent bytes sig =>
        let fuel := t.bytesLen / 224 + 2
        match (if cls = clsPut then e.putFor p t h fuel sent else e.getFor p t h fuel sent) with
        | (e1, n, 0) => e1.setTask { t with work := .transfer h n bytes sig }
        | (e1, n, st) => e1.stopTransfer { t with work := .transfer h n bytes sig } st
      | _ => e
    let after := match t.work with
      | .none =>
        if !d.transferOk t then d.finish p t stBadDescriptor 0 true
        else
          let (h, d1) := d.takeHandle
          go d1 { t with work := .transfer h 0 0 false }
      | _ => go d t
    d.seifInjection after

def doPut (q i : Nat) (d : Dev) : Dev := d.seifTransfer q i clsPut
def execPut (q i : Nat) (s : State) : Host.Outcome State Fault Refusal := done s (doPut q i s.dev)

def doGet (q i : Nat) (d : Dev) : Dev := d.seifTransfer q i clsGet
def execGet (q i : Nat) (s : State) : Host.Outcome State Fault Refusal := done s (doGet q i s.dev)

/-- PUT_ACK: messages performed; after the last the remote signal goes out, or the PUT is done (R455). [DEDUCED, log 36] -/
def doPutAck (n : Nat) (d : Dev) : Dev :=
  d.accept n false mtPutAck (fun e p m =>
    match e.transferTask m.handle with
    | some t => match t.work with
      | .transfer h sent bytes sig =>
        if t.cls ≠ clsPut ∨ t.module ≠ m.srcModule then (e, true)
        else
          let b := min t.bytesLen (bytes + 224 * (m.w1.toNat % 2 ^ 32))
          let t1 : Task := { t with work := .transfer h sent b sig }
          if b < t.bytesLen ∨ sig then (e.setTask t1, true)
          else if t.aux16 ≥ 2 ^ 15 && t.fenceUsed 3 then
            match e.seifSend (some p) 0xFFFF { e.transferMsg p t h mtSignal (t.fenceVa 3) with operand := BitVec.ofNat 64 (t.fenceVal 3), opMax := t.fop.testBit 5 } with
            | some e1 => (e1.setTask { t with work := .transfer h sent b true }, true)
            | none => (e.stopTransfer t1 stUnreachable, true)
          else (e.workDone t1 0 t.bytesLen, true)
      | _ => (e, true)
    | none => (e, true))

def execPutAck (port : Nat) (s : State) : Host.Outcome State Fault Refusal := done s (doPutAck port s.dev)

/-- SIGNAL_ACK: the remote signal has been performed; the PUT is done. -/
def doSignalAck (n : Nat) (d : Dev) : Dev :=
  d.accept n false mtSignalAck (fun e _ m =>
    match e.transferTask m.handle with
    | some t => match t.work with
      | .transfer _ _ _ sig => if sig && t.module == m.srcModule then (e.workDone t 0 t.bytesLen, true) else (e, true)
      | _ => (e, true)
    | none => (e, true))

def execSignalAck (port : Nat) (s : State) : Host.Outcome State Fault Refusal := done s (doSignalAck port s.dev)

/-- GET_DATA: written at its place in the destination; the GET is done with its last byte. Data waits at sag stage 4. -/
def doGetData (n : Nat) (d : Dev) : Dev :=
  d.accept n true mtGetData (fun e p m =>
    if e.stage ≥ 4 then (e, false)
    else match e.transferTask m.handle with
    | some t => match t.work with
      | .transfer h sent bytes sig =>
        if t.cls ≠ clsGet ∨ t.module ≠ m.srcModule ∨ !e.partRuns p then (e, true)
        else match e.cpWriteAll p (e.fnOfQueue t.q) (t.body 1 + (msgVa m - t.body 0)) (16 * m.dlen) (ofBytes m.data) t.acct with
          | (e1, .wait) => (e1, false)
          | (e1, .fault) => (e1.stopTransfer t stFetchFault, true)
          | (e1, .ok _) =>
            let b := min t.bytesLen (bytes + 16 * m.dlen)
            let t1 : Task := { t with work := .transfer h sent b sig }
            (if b = t.bytesLen then e1.workDone t1 0 b else e1.setTask t1, true)
      | _ => (e, true)
    | none => (e, true))

def execGetData (port : Nat) (s : State) : Host.Outcome State Fault Refusal := done s (doGetData port s.dev)

/-- NACK: the transfer, or the collective, that its handle names stops with the status (R456). [DEDUCED, log 36] -/
def doNack (n : Nat) (d : Dev) : Dev :=
  d.accept n false mtNack (fun e p m =>
    let st := m.w1.toNat % 2 ^ 16
    match (e.transferTask m.handle).filter (fun t => t.module == m.srcModule) with
    | some t => (e.stopTransfer t st, true)
    | none => match e.collByHandle p m.handle with
      | some c => (e.stopColl c st, true)
      | none => (e, true))

def execNack (port : Nat) (s : State) : Host.Outcome State Fault Refusal := done s (doNack port s.dev)

end Sys2Proof.Machine
end

