-- ==== Sys2Proof/Machine/Coll.lean ====
section
/-! DEFINITION. Collectives: communicators, schedules, steps, combination, the peer-wait log; TASK_TIMEOUT (15 R457-R463,
R465, 12 R366). -/

namespace Sys2Proof.Machine

open Sys2Proof

/-! ## Elements and operations (R458, R460) -/

/-- Bytes of an element of a dtype. -/
def dtypeSize (t : Nat) : Nat := match t with | 1 => 8 | 2 => 2 | 3 => 2 | 6 => 8 | 7 => 8 | _ => 4

/-- One op on two elements, rounded once in RN; integer sums wrap. -/
def collOp (op dtype a b : Nat) : Nat :=
  let float := fun (f : Fmt) => if op = 0 then (f.accumulate .rn [f.decode a, f.decode b]).code else (f.minMax (op == 2) a b).code
  let int := fun (isSigned : Bool) =>
    let w := 8 * dtypeSize dtype
    let less : Bool := if isSigned then decide (signed w a < signed w b) else decide (a < b)
    if op = 0 then (a + b) % 2 ^ w else if less == (op == 1) then a else b
  match dtype with
  | 0 => float fp32
  | 1 => float fp64
  | 2 => float fp16
  | 3 => float bf16
  | 4 | 6 => int true
  | _ => int false

/-! ## Schedules (R459, R460) -/

/-- What a rank does in a step: to whom it sends which positions of its buffer, from whom it receives which, and whether
it combines them. -/
structure Plan where
  sends : List (Nat × List Nat) := []
  recvs : List (Nat × List Nat) := []
  combine : Bool := false
  deriving DecidableEq, Repr

/-- P, and log2 P. -/
def foldLog (n : Nat) : Nat := n.log2
def foldPow (n : Nat) : Nat := 2 ^ foldLog n
def foldStep (n : Nat) : Nat := if n = foldPow n then 0 else 1

/-- The segment of the vector that a rank below P holds after `k` halvings: first position and past the last. [DEDUCED, log 37] -/
def segAfter (pw len r : Nat) : Nat → Nat × Nat
  | 0 => (0, len)
  | k + 1 =>
    let s := segAfter pw len r k
    let mid := s.1 + (s.2 - s.1) / 2
    if r / (pw / 2 ^ (k + 1)) % 2 = 0 then (s.1, mid) else (mid, s.2)

def positions (s : Nat × Nat) : List Nat := (List.range (s.2 - s.1)).map (fun k => s.1 + k)

/-- Halving step `k` of a rank over a vector of `len`. [DEDUCED, log 37] -/
def halvingPlan (n me len k : Nat) : Plan :=
  let pw := foldPow n
  if me ≥ pw then {}
  else
    let partner := me ^^^ (pw / 2 ^ (k + 1))
    { sends := [(partner, positions (segAfter pw len partner (k + 1)))], recvs := [(partner, positions (segAfter pw len me (k + 1)))], combine := true }

/-- The fold-in step, and its reverse after doubling. -/
def foldInPlan (n me : Nat) (what : Nat → List Nat) (combine : Bool) : Plan :=
  let pw := foldPow n
  if me ≥ pw then { sends := [(me - pw, what me)] }
  else if me + pw < n then { recvs := [(me + pw, what (me + pw))], combine := combine }
  else {}

def foldOutPlan (n me len : Nat) : Plan :=
  let pw := foldPow n
  let all := List.range len
  if me ≥ pw then { recvs := [(me - pw, all)] } else if me + pw < n then { sends := [(me + pw, all)] } else {}

/-- Blocks of an ALL_GATHER that a rank below P holds after `k` doublings. -/
def heldBlocks (n count r k : Nat) : List Nat :=
  let pw := foldPow n
  ((List.range n).filter (fun j => j % pw / 2 ^ k == r / 2 ^ k)).flatMap (fun j => positions (j * count, (j + 1) * count))

/-- Steps of a kind among `n` ranks. -/
def collSteps (kind n : Nat) : Nat :=
  let f := foldStep n
  let l := foldLog n
  match kind with
  | 1 | 6 => f + l + l + f
  | 2 => f + l + 1
  | 3 => f + l + f
  | 4 => if n = foldPow n then l else l + 1
  | 5 => n - 1
  | _ => 0

/-- Positions of the buffer that lie in a range. -/
def within (s : Nat × Nat) (lo hi : Nat) : List Nat := positions (max s.1 lo, min s.2 hi)

/-- The plan of a step. [DEDUCED, log 37] -/
def collPlan (kind n me count root step : Nat) : Plan :=
  let f := foldStep n
  let l := foldLog n
  let pw := foldPow n
  match kind with
  | 1 | 6 =>
    if step < f then foldInPlan n me (fun _ => List.range count) true
    else if step < f + l then halvingPlan n me count (step - f)
    else if step < f + l + l then
      if me ≥ pw then {}
      else
        let k := f + l + l - 1 - step
        let partner := me ^^^ (pw / 2 ^ (k + 1))
        { sends := [(partner, positions (segAfter pw count me (k + 1)))], recvs := [(partner, positions (segAfter pw count partner (k + 1)))] }
    else foldOutPlan n me count
  | 2 =>
    let len := n * count
    if step < f then foldInPlan n me (fun _ => List.range len) true
    else if step < f + l then halvingPlan n me len (step - f)
    else
      let seg := fun (r : Nat) => if r < pw then segAfter pw len r l else (0, 0)
      let others := (List.range n).filter (fun r => r != me)
      { sends := (others.map (fun r => (r, within (seg me) (r * count) ((r + 1) * count)))).filter (fun x => !x.2.isEmpty)
        recvs := (others.map (fun r => (r, within (seg r) (me * count) ((me + 1) * count)))).filter (fun x => !x.2.isEmpty) }
  | 3 =>
    if step < f then foldInPlan n me (fun r => positions (r * count, (r + 1) * count)) false
    else if step < f + l then
      if me ≥ pw then {}
      else
        let k := step - f
        let partner := me ^^^ 2 ^ k
        { sends := [(partner, heldBlocks n count me k)], recvs := [(partner, heldBlocks n count partner k)] }
    else foldOutPlan n me (n * count)
  | 4 =>
    let v := (me + n - root) % n
    let all := List.range count
    if v < 2 ^ step then (if v + 2 ^ step < n then { sends := [((v + 2 ^ step + root) % n, all)] } else {})
    else if v < 2 ^ (step + 1) then { recvs := [((v - 2 ^ step + root) % n, all)] }
    else {}
  | 5 =>
    let s := step + 1
    let to' := (me + s) % n
    let src := (me + n - s) % n
    { sends := [(to', positions (to' * count, (to' + 1) * count))]
      recvs := [(src, positions ((n + src) * count, (n + src + 1) * count))] }
  | _ => {}

def Coll.plan (c : Coll) : Plan := collPlan c.kind c.ranks.length c.me c.count c.root c.step

/-- Elements of a message, and messages that carry a number of elements: one at least. -/
def perMessage (dtype : Nat) : Nat := 224 / dtypeSize dtype
def messagesFor (dtype k : Nat) : Nat := max 1 ((k + perMessage dtype - 1) / perMessage dtype)

/-! ## Release (R457, R458) -/

def clsCollective : Nat := 0x20

/-- Elements of the source and of the working buffer. -/
def collSource (kind n count : Nat) (isRoot : Bool) : Nat :=
  match kind with | 2 | 5 => n * count | 4 => if isRoot then count else 0 | 6 => 0 | _ => count

/-- The working buffer from the source's elements. -/
def collBuffer (kind n me count : Nat) (src : List Nat) : List Nat :=
  match kind with
  | 3 => List.replicate (me * count) 0 ++ src ++ List.replicate ((n - me - 1) * count) 0
  | 4 => if src.isEmpty then List.replicate count 0 else src
  | 5 => src ++ List.replicate (me * count) 0 ++ (src.drop (me * count)).take count ++ List.replicate ((n - me - 1) * count) 0
  | _ => src

/-- The elements of the destination. -/
def Coll.result (c : Coll) : List Nat :=
  match c.kind with
  | 2 => (c.buf.drop (c.me * c.count)).take c.count
  | 5 => c.buf.drop (c.ranks.length * c.count)
  | 6 => []
  | _ => c.buf

/-- Elements as a number of bytes. -/
def packElems (size : Nat) (xs : List Nat) : Nat := xs.foldr (fun x n => x + n * 2 ^ (8 * size)) 0

def unpackElems (size v n : Nat) : List Nat := (List.range n).map (fun k => bytesAt v (size * k) size)

/-- The collective that a task and its communicator describe; none when a check of R458 fails. [DEDUCED, log 37] -/
def Dev.mkColl (d : Dev) (p : Nat) (t : Task) (comm : Nat) : Option Coll :=
  let n := bytesAt comm 6 2
  let me := bytesAt comm 8 2
  let mask := bytesAt comm 0xA 2
  let logVa := bytesAt comm 0x10 8
  let logK := bytesAt comm 0x18 1
  let entries := (List.range n).map (fun r => bytesAt comm (0x40 + 4 * r) 4)
  let ranks := entries.map (fun e => (e % 4096, e / 4096 % 4))
  let kind := t.aux16 % 16
  let count := t.body 3 % 2 ^ 40
  let root := t.body 3 / 2 ^ 40 % 4096
  let ok := bytesAt comm 0 4 == 0x4D435A53 && decide (1 ≤ n) && decide (n ≤ 4096) && decide (me < n)
    && (List.range 16).all (fun k => !mask.testBit k || d.partOfPort k == some p)
    && bytesAt comm 0xC 4 == 0 && logVa % 64 == 0 && (if logVa = 0 then logK == 0 else decide (6 ≤ logK) && decide (logK ≤ 16))
    && bytesAt comm 0x19 39 == 0 && entries.all (fun e => e / 2 ^ 14 == 0) && ranks[me]? == some (d.conf.moduleId, p)
    && decide ((ranks.map (fun x => x.1)).eraseDups.length = n) && decide (root < n) && decide (1 ≤ kind) && decide (kind ≤ 6)
    && decide (t.aux16 / 16 % 4 < 3) && decide (t.aux16 / 64 % 16 < 8) && t.aux16 / 2 ^ 10 == 0 && t.body 3 / 2 ^ 52 == 0
    && (kind != 6 || count == 0)
  if ok then
    some { q := t.q, i := t.i, part := p, fn := d.fnOfQueue t.q, engine := bindNum (bindByte (d.queue t.q).binding t.slot)
           commId := bytesAt comm 4 2, seq := t.aux32, kind := kind, op := t.aux16 / 16 % 4, dtype := t.aux16 / 64 % 16, count := count
           root := root, ranks := ranks, me := me, ports := mask, logVa := logVa, logK := logK, dst := t.body 2, buf := [] }
  else none

/-! ## Steps (R462) -/

/-- A message of a collective to a rank. -/
def Dev.collMsg (d : Dev) (c : Coll) (r type : Nat) (w1 : Nat) : SeifMsg :=
  let to' := c.ranks.getD r (0, 0)
  { dstModule := to'.1, dpart := if c.fn < 0x100 then 0 else to'.2, srcModule := d.conf.moduleId, spart := c.part, type := type
    function := fnField c.fn, handle := c.seq % 2 ^ 13, w1 := BitVec.ofNat 64 w1 }

/-- Sends COLL_READY to every rank that the step receives from. -/
def Dev.sendReadies (d : Dev) (c : Coll) : List (Nat × List Nat) → Option Dev
  | [] => some d
  | (r, _) :: rest =>
    match d.seifSend (some c.part) c.ports (d.collMsg c r mtReady (c.commId + c.seq * 2 ^ 16 + c.step % 256 * 2 ^ 48)) with
    | some e => Dev.sendReadies e c rest
    | none => none

/-- Sends the step's data to one rank: messages from number `k` on. -/
def Dev.sendData (d : Dev) (c : Coll) (r : Nat) (pos : List Nat) : Nat → Nat → Option Dev
  | 0, _ => some d
  | fuel + 1, k =>
    let size := dtypeSize c.dtype
    let part := (pos.drop (k * perMessage c.dtype)).take (perMessage c.dtype)
    let len := (size * part.length + 15) / 16
    match d.seifSend (some c.part) c.ports { d.collMsg c r mtCollData (c.commId + c.step % 256 * 2 ^ 16 + k % 2 ^ 32 * 2 ^ 24) with
        dlen := len, data := toBytes (packElems size (part.map (fun x => c.buf.getD x 0))) (16 * len) } with
    | some e => Dev.sendData e c r pos fuel (k + 1)
    | none => none

/-- Sends the step's data to every rank that is ready for it and has not had it. -/
def Dev.sendStep (d : Dev) (c : Coll) : List (Nat × List Nat) → Option (Dev × Coll)
  | [] => some (d, c)
  | (r, pos) :: rest =>
    if c.sentTo.contains r || !c.readies.contains (r, c.step % 256) then Dev.sendStep d c rest
    else match d.sendData c r pos (messagesFor c.dtype pos.length) 0 with
      | some e => Dev.sendStep e { c with sentTo := c.sentTo ++ [r] } rest
      | none => none

/-- The 64 bytes of a peer-wait record. -/
def Coll.record (c : Coll) (now slowest : Nat) : Nat :=
  let worst := c.waits.foldl (fun m x => max m (x.2 - 1)) 0
  c.seq + (c.step % 256) <<< 32 + c.kind <<< 40 + slowest <<< 48 + (c.start % 2 ^ 64) <<< 64 + (min worst 0xFFFFFFFF) <<< 128
    + (min (now - c.start) 0xFFFFFFFF) <<< 160 + (c.ranks.getD slowest (0, 0)).1 <<< 192 + c.commId <<< 208
    + (List.range 16).foldl (fun n k => n + (min ((sget 0 c.waits k - 1) / 16) 0xFFFF) <<< (256 + 16 * k)) 0

/-- A finished step: the waits go to HUB_SEIF_WAIT, the record to the log, and the next step stands to begin. [DEDUCED, log 37] -/
def Dev.stepOver (d : Dev) (c : Coll) : Dev × Coll :=
  let worst := c.waits.foldl (fun m x => max m (x.2 - 1)) 0
  let d1 := c.waits.foldl (fun (e : Dev) x => let y := e.port x.1; e.setPort x.1 { y with wait := (y.wait + (x.2 - 1)) % 2 ^ 64 }) d
  (d1, { c with step := c.step + 1, began := false, sentTo := [], got := [], waits := [], slowest := 0, total := c.total + min worst 0xFFFFFFFF
                readies := c.readies.filter (fun x => x.2 != c.step % 256)
                log := if c.logVa = 0 ∨ c.plan.recvs.isEmpty then c.log else c.log ++ [c.record d.time c.slowest] })

/-- Writes the oldest waiting record, then the producer count. -/
def Dev.flushLog (d : Dev) (c : Coll) : Nat → Dev × Coll × Cp
  | 0 => (d, c, .ok 0)
  | fuel + 1 =>
    match c.log with
    | [] => (d, c, .ok 0)
    | x :: rest =>
      match d.cpRead c.part c.fn c.logVa 8 with
      | (d1, .ok n) =>
        match d1.cpWrite c.part c.fn (c.logVa + 64 + 64 * (n % 2 ^ c.logK)) 64 x with
        | (d2, .ok _) => match d2.cpWrite c.part c.fn c.logVa 8 ((n + 1) % 2 ^ 64) with
          | (d3, .ok _) => Dev.flushLog d3 { c with log := rest } fuel
          | (d3, r) => (d3, c, r)
        | (d2, r) => (d2, c, r)
      | (d1, r) => (d1, c, r)

/-- Whether everything of the step has been sent and received. -/
def Coll.stepComplete (c : Coll) (pl : Plan) : Bool :=
  pl.sends.all (fun x => c.sentTo.contains x.1) && pl.recvs.all (fun x => decide (sget 0 c.got x.1 ≥ messagesFor c.dtype x.2.length))

/-- Stores a collective's progress. -/
def Dev.setColl (d : Dev) (c : Coll) : Dev :=
  { d with seif := { d.seif with colls := d.seif.colls.map (fun x => if x.q = c.q ∧ x.i = c.i then c else x) } }

/-- The result is written, the log too, and the task is done. -/
def Dev.endColl (d : Dev) (c : Coll) : Dev :=
  match d.task c.q c.i with
  | none => d
  | some t =>
    let size := dtypeSize c.dtype
    let xs := c.result
    match d.flushLog c (c.log.length + 1) with
    | (d1, c1, .fault) => d1.stopColl c1 stFetchFault
    | (d1, c1, .wait) => d1.setColl c1
    | (d1, c1, .ok _) => match d1.cpWriteAll c.part c.fn c.dst (size * xs.length) (packElems size xs) t.acct with
      | (d2, .wait) => d2.setColl c1
      | (d2, .fault) => d2.stopColl c1 stFetchFault
      | (d2, .ok _) =>
        ({ d2 with seif := { d2.seif with colls := d2.seif.colls.filter (fun x => !(x.q == c.q && x.i == c.i)) } } : Dev).workDone t 0 c.total

/-- Carries a collective as far as the messages it has allow. -/
def Dev.collRun (d : Dev) (c : Coll) : Nat → Dev
  | 0 => d.setColl c
  | fuel + 1 =>
    if c.step ≥ collSteps c.kind c.ranks.length then (d.setColl c).endColl c
    else
      let pl := c.plan
      match (if c.began then some d else d.sendReadies c pl.recvs) with
      | none => d.stopColl c stUnreachable
      | some d1 =>
        let c1 := if c.began then c else { c with began := true, start := d.time }
        match d1.sendStep c1 pl.sends with
        | none => d1.stopColl c1 stUnreachable
        | some (d2, c2) =>
          if c2.stepComplete pl then
            match d2.stepOver c2 with
            | (d3, c3) => Dev.collRun d3 c3 fuel
          else d2.setColl c2

/-- Runs a collective unless its engine pauses. -/
def Dev.collGo (d : Dev) (c : Coll) : Dev :=
  if d.coresIssue then d.collRun c (collSteps c.kind c.ranks.length + 1) else d.setColl c

/-- Messages that arrived early are given to the collective they belong to. -/
def Dev.takeEarly (d : Dev) (c : Coll) : Dev × Coll × Bool :=
  let mine := d.seif.early.filter (fun e => e.part == c.part && e.fn == c.fn && e.commId == c.commId && e.seq == c.seq)
  let rank := fun (m : Nat) => (List.range c.ranks.length).find? (fun r => (c.ranks.getD r (0, 0)).1 == m)
  ({ d with seif := { d.seif with early := d.seif.early.filter (fun e => !mine.contains e) } },
   { c with readies := c.readies ++ mine.filterMap (fun e => if e.abort then none else (rank e.module).map (fun r => (r, e.step))) },
   mine.any (fun e => e.abort))

/-- COLLECTIVE: the communicator and the source are read at release; later commands carry the steps on. -/
def doCollective (q i : Nat) (d : Dev) : Dev :=
  match d.working q i clsCollective with
  | none => d
  | some (p, t) =>
    match d.seif.colls.find? (fun c => c.q == q && c.i == i) with
    | some c => d.seifInjection (d.collGo c)
    | none =>
      if t.body 0 % 64 ≠ 0 then d.finish p t stBadDescriptor 0 true
      else match d.cpRead p (d.fnOfQueue q) (t.body 0) 64 t.acct with
      | (d1, .wait) => d1
      | (d1, .fault) => d1.finish p t stFetchFault 0 true
      | (d1, .ok head) =>
        match d1.cpRead p (d.fnOfQueue q) (t.body 0) (64 + 4 * (min (bytesAt head 6 2) 4096)) t.acct with
        | (d2, .wait) => d2
        | (d2, .fault) => d2.finish p t stFetchFault 0 true
        | (d2, .ok comm) =>
          match d2.mkColl p t comm with
          | none => d2.finish p t stBadDescriptor 0 true
          | some c =>
            let n := c.ranks.length
            let size := dtypeSize c.dtype
            let k := collSource c.kind n c.count (c.me == c.root)
            match d2.cpRead p c.fn (t.body 1) (size * k) t.acct with
            | (d3, .wait) => d3
            | (d3, .fault) => d3.workDone t stFetchFault 0
            | (d3, .ok v) =>
              let (d4, c1, aborted) := d3.takeEarly { c with buf := collBuffer c.kind n c.me c.count (unpackElems size v k) }
              if aborted then d4.workDone t stPeerAbort 0
              else
                let d5 : Dev := { d4.setTask { t with work := .collective } with seif := { d4.seif with colls := d4.seif.colls ++ [c1] } }
                d.seifInjection (d5.collGo c1)

def execCollective (q i : Nat) (s : State) : Host.Outcome State Fault Refusal := done s (doCollective q i s.dev)

/-! ## Messages -/

/-- The collective of a message with its full sequence number, and the sender's rank. -/
def Dev.collOf (d : Dev) (p : Nat) (m : SeifMsg) : Option (Coll × Nat) :=
  let w := m.w1.toNat
  match d.seif.colls.find? (fun c => c.part == p && c.fn == msgFn p m && c.commId == w % 2 ^ 16 && c.seq == w / 2 ^ 16 % 2 ^ 32) with
  | none => none
  | some c => ((List.range c.ranks.length).find? (fun r => (c.ranks.getD r (0, 0)).1 == m.srcModule)).map (fun r => (c, r))

/-- Keeps a message for a collective not yet released; an engine holds 64 (R462). [DEDUCED, log 37] -/
def Dev.holdEarly (d : Dev) (n p : Nat) (m : SeifMsg) (abort : Bool) : Dev × Bool :=
  let w := m.w1.toNat
  if (d.seif.early.filter (fun e => e.engine == n / 4)).length ≥ 64 then (d, false)
  else ({ d with seif := { d.seif with early := d.seif.early ++ [{ engine := n / 4, part := p, fn := msgFn p m, commId := w % 2 ^ 16
                                                                   seq := w / 2 ^ 16 % 2 ^ 32, module := m.srcModule, step := w / 2 ^ 48 % 256, abort := abort }] } }, true)

/-- A target that does not take a message drops it when it asks for no answer. -/
def Dev.orDrop (d : Dev) (p : Nat) (m : SeifMsg) (f : Dev → Dev × Bool) : Dev × Bool := if d.targetTakes p m then f d else (d, true)

/-- COLL_READY. -/
def doCollReady (n : Nat) (d : Dev) : Dev :=
  d.accept n false mtReady (fun e p m =>
    if !e.targetTakes p m then (e.answerSeif p m mtNack (BitVec.ofNat 64 stRemoteLost), true)
    else match e.collOf p m with
      | some (c, r) =>
        let c1 := { c with readies := c.readies ++ [(r, m.w1.toNat / 2 ^ 48 % 256)] }
        (e.collGo c1, true)
      | none => e.holdEarly n p m false)

def execCollReady (port : Nat) (s : State) : Host.Outcome State Fault Refusal := done s (doCollReady port s.dev)

/-- Stores or combines received elements at their positions. -/
def placeElems (op dtype : Nat) (combine : Bool) (buf : List Nat) (items : List (Nat × Nat)) : List Nat :=
  items.foldl (fun b x => b.set x.1 (if combine then collOp op dtype (b.getD x.1 0) x.2 else x.2)) buf

/-- COLL_DATA: the elements enter the buffer; the first of a step on a port ends that port's wait. -/
def doCollData (n : Nat) (d : Dev) : Dev :=
  d.perform n true mtCollData (fun e p m =>
    let w := m.w1.toNat
    match e.seif.colls.find? (fun c => c.part == p && c.fn == msgFn p m && c.commId == w % 2 ^ 16 && c.seq % 2 ^ 13 == m.handle
        && c.step % 256 == w / 2 ^ 16 % 256 && c.began) with
    | none => (e, true)
    | some c =>
      let pl := c.plan
      match pl.recvs.find? (fun x => (c.ranks.getD x.1 (0, 0)).1 == m.srcModule) with
      | none => (e, true)
      | some (r, pos) =>
        let k := perMessage c.dtype
        let part := (pos.drop (w / 2 ^ 24 % 2 ^ 32 * k)).take k
        let size := dtypeSize c.dtype
        let vals := unpackElems size (ofBytes m.data) part.length
        let c1 : Coll := { c with buf := placeElems c.op c.dtype pl.combine c.buf (part.zip vals)
                                  got := sset 0 c.got r (sget 0 c.got r + 1)
                                  waits := if (sfind c.waits n).isSome then c.waits else sset 0 c.waits n (e.time - c.start + 1)
                                  slowest := r }
        (e.collGo c1, true))

def execCollData (port : Nat) (s : State) : Host.Outcome State Fault Refusal := done s (doCollData port s.dev)

/-- COLL_ABORT: the matching collective ends with PEER_ABORT, now or when it is released (R465). -/
def doCollAbort (n : Nat) (d : Dev) : Dev :=
  d.accept n false mtAbort (fun e p m => e.orDrop p m (fun e =>
    match e.collOf p m with
    | some (c, _) => (e.stopColl c stPeerAbort, true)
    | none => e.holdEarly n p m true))

def execCollAbort (port : Nat) (s : State) : Host.Outcome State Fault Refusal := done s (doCollAbort port s.dev)

/-! ## TASK_TIMEOUT (12 R366) -/

/-- TASK_TIMEOUT: a collective is aborted at its peers; a put or get stops at its next message; the task is squashed. -/
def doTaskTimeout (q i : Nat) (d : Dev) : Dev :=
  match d.expired q i with
  | none => d
  | some (p, t) => (d.abortColls (fun c => c.q == q && c.i == i)).expire p t

def execTaskTimeout (q i : Nat) (s : State) : Host.Outcome State Fault Refusal := done s (doTaskTimeout q i s.dev)

end Sys2Proof.Machine
end

