-- ==== Sys2Proof/Machine/Control.lean ====
section
/-! DEFINITION. Control instructions and break-away (03 R91-R92, R98, R107-R114, 04 R141, R161-R163). -/

namespace Sys2Proof.Machine

open Sys2Proof

/-- A pc moved by a signed count of words, in 64 bits. [DEDUCED, log 10] -/
def pcPlus (pc : Nat) (words : BitVec 20) : Nat := (pc + 8 * (words.signExtend 64).toNat) % 2 ^ 64

/-- The target of a direct branch (R141). [DEDUCED, log 10] -/
def directTarget (w : FmtB) (pc : Nat) : Nat := if w.lf then w.imm.toNat else pcPlus pc w.toff

/-- The point a branch records (R141). -/
def coffPoint (w : FmtB) (pc : Nat) : Option Nat := if w.coff = 0 then none else some (pcPlus pc w.coff)

/-- The target of an indirect branch in a lane. -/
def indirectTarget (g : Group) (w : FmtB) (lane : Nat) : Nat := srcReg g lane (w.toff.getLsbD 19) (w.toff.toNat % 256) 2

/-- The lanes of each distinct target, in ascending order of the lowest lane. -/
def byTarget (target : Nat → Nat) : List Nat → List (Lanes × Nat)
  | [] => []
  | l :: ls =>
    let rest := byTarget target ls
    let t := target l
    let same := rest.filter (fun x => x.2 == t)
    (same.foldl (fun m x => m ||| x.1) (laneBit l), t) :: rest.filter (fun x => x.2 != t)

/-- A taken branch of the whole path (R111, R113): a backward one gives way to another ready path, unless the path
parks at its target. [DEDUCED, log 9] -/
def Group.jump (g : Group) (pc target : Nat) : Group :=
  let g1 := g.goto target
  if target ≤ pc then
    let atPoint := match g1.running with
      | some p => (match p.points.head? with | some t => g1.pointPc t == some target | none => false)
      | none => false
    if atPoint then { g1 with spins := g1.spins + 1 }.settled else g1.yieldPath.settled
  else g1.settled

/-- A split among targets; a backward one counts for break-away (R107, R113). [DEDUCED, log 8; DEDUCED, log 9] -/
def Group.diverge (g : Group) (pc : Nat) (fall : Option (Lanes × Nat)) (taken : List (Lanes × Nat)) (point : Option Nat) : Group :=
  let parts := match fall with | some f => f :: taken | none => taken
  let g1 := g.split parts point
  let g2 := if taken.any (fun x => decide (x.2 ≤ pc)) then { g1 with spins := g1.spins + 1 } else g1
  g2.settled

/-- The branch of the lanes that take it, each to its target (R161, R107). [DEDUCED, log 8] -/
def Group.branch (g : Group) (p : Path) (next : Nat) (taken : List (Lanes × Nat)) (point : Option Nat) : Group :=
  let all := taken.foldl (fun m x => m ||| x.1) (0 : Lanes)
  let rest := p.mask &&& ~~~all
  match taken with
  | [] => (g.goto next).settled
  | [x] => if rest = 0 then g.jump p.pc x.2 else g.diverge p.pc (some (rest, next)) [x] point
  | xs => g.diverge p.pc (if rest = 0 then none else some (rest, next)) xs point

/-- The return address in the link pair of every lane that takes part (R162). -/
def linkLanes (g : Group) (w : FmtB) (lanes : Lanes) (next : Nat) : Group :=
  (lanesOf lanes).foldl (fun (h : Group) l => h.writeVs w.link.toNat l 2 next) g

/-- BRA and CALL. -/
def doDirect (link : Bool) (g : GroupRef) (w : FmtB) (d : Dev) : Dev :=
  d.issue g (fun c => bUses c.grp.nv w false link true) true (fun _ => 1) (insLen w.lf) false
    (fun c =>
      let lanes := c.lanes w.guard
      let next := c.path.pc + insLen w.lf
      let g1 := if link then linkLanes c.grp w lanes next else c.grp
      let taken := if lanes = 0 then [] else [(lanes, directTarget w c.path.pc)]
      some (d.setGroup c.key (g1.branch c.path next taken (coffPoint w c.path.pc))))

/-- BRA.I, CALL.I and RET: a bad target raises an address-kind fault (R161). -/
def doIndirect (link : Bool) (g : GroupRef) (w : FmtB) (d : Dev) : Dev :=
  d.issue g (fun c => bUses c.grp.nv w true link false) true (fun _ => 1) 8 false
    (fun c =>
      let lanes := c.lanes w.guard
      let next := c.path.pc + 8
      let target := indirectTarget c.grp w
      if (lanesOf lanes).any (fun l => decide (target l % 8 ≠ 0 ∨ target l ≥ 2 ^ 56)) then
        some (d.jobFault c.part causeAddress c.die)
      else
        let g1 := if link then linkLanes c.grp w lanes next else c.grp
        some (d.setGroup c.key (g1.branch c.path next (byTarget target (lanesOf lanes)) (coffPoint w c.path.pc))))

/-- BRA (R161). -/
def doBra (g : GroupRef) (w : FmtB) (d : Dev) : Dev := doDirect false g w d
def execBra (g : GroupRef) (w : FmtB) (s : State) : Host.Outcome State Fault Refusal := done s (doBra g w s.dev)

/-- BRA.I (R161). -/
def doBraI (g : GroupRef) (w : FmtB) (d : Dev) : Dev := doIndirect false g w d
def execBraI (g : GroupRef) (w : FmtB) (s : State) : Host.Outcome State Fault Refusal := done s (doBraI g w s.dev)

/-- CALL (R162). -/
def doCall (g : GroupRef) (w : FmtB) (d : Dev) : Dev := doDirect true g w d
def execCall (g : GroupRef) (w : FmtB) (s : State) : Host.Outcome State Fault Refusal := done s (doCall g w s.dev)

/-- CALL.I (R162). -/
def doCallI (g : GroupRef) (w : FmtB) (d : Dev) : Dev := doIndirect true g w d
def execCallI (g : GroupRef) (w : FmtB) (s : State) : Host.Outcome State Fault Refusal := done s (doCallI g w s.dev)

/-- RET (R162). -/
def doRet (g : GroupRef) (w : FmtB) (d : Dev) : Dev := doIndirect false g w d
def execRet (g : GroupRef) (w : FmtB) (s : State) : Host.Outcome State Fault Refusal := done s (doRet g w s.dev)

/-- BREAK_AWAY: the parked paths that are due break away (R113). -/
def doBreakAway (g : GroupRef) (d : Dev) : Dev :=
  match d.group (gkeyOf g), d.partOfStack g.die with
  | some gr, some p => if d.partRuns p && gr.breakDue then d.setGroup (gkeyOf g) gr.breakAway else d
  | _, _ => d
def execBreakAway (g : GroupRef) (s : State) : Host.Outcome State Fault Refusal := done s (doBreakAway g s.dev)

/-! ## NOP, YIELD, EXIT -/

/-- A control instruction in format A with no operand but, for SYNC, a (R136, R143). -/
def ctlSpec (w : FmtA) : ASpec := { modOk := w.mod == 0 }

/-- NOP (R163). [DEDUCED, log 47] -/
def doNop (g : GroupRef) (w : FmtA) (d : Dev) : Dev :=
  d.issueGroup g (fun c => aUses c.grp.nv w (ctlSpec w)) true 1 8 (fun c => c.grp)
def execNop (g : GroupRef) (w : FmtA) (s : State) : Host.Outcome State Fault Refusal := done s (doNop g w s.dev)

/-- YIELD: the path gives way when its guard holds in some lane (R111, R163). [DEDUCED, log 9; DEDUCED, log 47] -/
def doYield (g : GroupRef) (w : FmtA) (d : Dev) : Dev :=
  d.issue g (fun c => aUses c.grp.nv w (ctlSpec w)) true (fun _ => 1) 8 false
    (fun c =>
      let g1 := c.grp.goto (c.path.pc + 8)
      let atPoint := match c.path.points.head? with | some t => g1.pointPc t == some (c.path.pc + 8) | none => false
      some (d.setGroup c.key
        (if c.lanes w.guard = 0 then g1.settled
         else if atPoint then { g1 with spins := g1.spins + 1 }.settled
         else g1.yieldPath.settled)))
def execYield (g : GroupRef) (w : FmtA) (s : State) : Host.Outcome State Fault Refusal := done s (doYield g w s.dev)

/-- Lanes of the running path exit; the others go on at `next` (R91, R163). -/
def Group.exitLanes (g : Group) (p : Path) (lanes : Lanes) (next : Nat) : Group :=
  let rest := p.mask &&& ~~~lanes
  let g1 := { g with exited := g.exited ||| lanes }
  (if rest = 0 then { g1 with paths := g1.others } else g1.setRunning { p with mask := rest, pc := next }).settled

/-- EXIT (R91, R163). [DEDUCED, log 47] -/
def doExit (g : GroupRef) (w : FmtA) (d : Dev) : Dev :=
  d.issue g (fun c => aUses c.grp.nv w (ctlSpec w)) true (fun _ => 1) 8 false
    (fun c => some ((d.setGroup c.key (c.grp.exitLanes c.path (c.lanes w.guard) (c.path.pc + 8))).afterExit c.key))
def execExit (g : GroupRef) (w : FmtA) (s : State) : Host.Outcome State Fault Refusal := done s (doExit g w s.dev)

/-! ## SYNC forms -/

/-- The lanes that take part become a path held at this pc, the others go on at the next instruction (R163). -/
def Group.hold (g : Group) (p : Path) (lanes : Lanes) (status : PathStatus) : Group :=
  let rest := p.mask &&& ~~~lanes
  let g1 := g.setRunning { p with mask := lanes, status := status }
  (if rest = 0 then g1 else g1.addReady { p with mask := rest, pc := p.pc + 8 }).settled

/-- SYNC: mask in a, or all lanes with .ALL (mod [0]) (R110, R163). [DEDUCED, log 47] -/
def doSync (g : GroupRef) (w : FmtA) (d : Dev) : Dev :=
  let all := w.mod.getLsbD 0
  d.issue g (fun c => aUses c.grp.nv w { a := if all then .unused else .reg 1, modOk := decide (w.mod.toNat < 2) }) true (fun _ => 1) 8 false
    (fun c =>
      let lanes := c.lanes w.guard
      let mask : Lanes := if all then BitVec.allOnes 32 else BitVec.ofNat 32 (srcA c.grp w (lowLane lanes) 1)
      some (d.setGroup c.key (if lanes = 0 then (c.grp.goto (c.path.pc + 8)).settled
        else c.grp.hold c.path lanes (.heldSync mask))))
def execSync (g : GroupRef) (w : FmtA) (s : State) : Host.Outcome State Fault Refusal := done s (doSync g w s.dev)

/-- A barrier: it waits, as a release, for the earlier accesses of its lanes (R231, R238). -/
def doBarrier (status : PathStatus) (scope : Nat) (g : GroupRef) (w : FmtA) (d : Dev) : Dev :=
  d.issue g (fun c => aUses c.grp.nv w (ctlSpec w)) true (fun _ => 1) 8 false
    (fun c =>
      let lanes := c.lanes w.guard
      if lanes = 0 then some (d.setGroup c.key (c.grp.goto (c.path.pc + 8)).settled)
      else if d.unperformed c lanes scope then none
      else some ((d.setGroup c.key (c.grp.hold c.path lanes status)).barriers c.coreKey c.grp.block))

/-- SYNC.BLOCK (R92, R163). -/
def doSyncBlock (g : GroupRef) (w : FmtA) (d : Dev) : Dev := doBarrier .heldBlock 1 g w d
def execSyncBlock (g : GroupRef) (w : FmtA) (s : State) : Host.Outcome State Fault Refusal := done s (doSyncBlock g w s.dev)

/-- SYNC.CLUSTER (R98, R163). -/
def doSyncCluster (g : GroupRef) (w : FmtA) (d : Dev) : Dev := doBarrier .heldCluster 2 g w d
def execSyncCluster (g : GroupRef) (w : FmtA) (s : State) : Host.Outcome State Fault Refusal := done s (doSyncCluster g w s.dev)

end Sys2Proof.Machine
end

