-- ==== Sys2Proof/Machine/Copy.lean ====
section
/-! DEFINITION. The copy engine: COPY, COPY_2D, FILL, COPY_REDUCE (11 R352, R368, 09 R286). A command carries its task as
far as the lines it needs are there, piece by piece in order; the next command goes on from where it stands. -/

namespace Sys2Proof.Machine

open Sys2Proof

/-- A transfer: rows of `row` bytes with a pitch on each side; a fill has no source but its pattern. -/
structure Xfer where
  src   : Option Nat
  dst   : Nat
  row   : Nat
  rows  : Nat
  sp    : Nat := 0
  dp    : Nat := 0
  pat   : Nat := 0
  deriving DecidableEq, Repr

def Xfer.total (x : Xfer) : Nat := x.row * x.rows

/-- The addresses of byte `m` of a transfer. -/
def Xfer.srcAt (x : Xfer) (m : Nat) : Nat := x.src.getD 0 + m / x.row * x.sp + m % x.row
def Xfer.dstAt (x : Xfer) (m : Nat) : Nat := x.dst + m / x.row * x.dp + m % x.row

/-- Bytes of the piece at byte `m`: to the end of its row and of the lines it touches. -/
def Xfer.piece (x : Xfer) (m : Nat) : Nat :=
  let k := min (x.row - m % x.row) (128 - x.dstAt m % 128)
  match x.src with
  | some _ => min k (128 - x.srcAt m % 128)
  | none => k

/-- Whether a row of the source meets a row of the destination in virtual addresses. [DEDUCED, log 25] -/
def Xfer.overlapsVa (x : Xfer) : Bool :=
  match x.src with
  | none => false
  | some s =>
    (List.range x.rows).any (fun i =>
      let a := s + i * x.sp
      let j := (a - x.dst) / max x.dp 1
      [j - 1, j, j + 1].any (fun n => decide (n < x.rows) && decide (x.dst + n * x.dp < a + x.row) && decide (a < x.dst + n * x.dp + x.row)))

/-- The physical pieces of one side of a transfer, when all of it translates. -/
def Dev.sideFor (d : Dev) (p fn : Nat) (write : Bool) (base pitch row : Nat) : List Nat → Dev × Cp × List (Bool × Nat × Nat)
  | [] => (d, .ok 0, [])
  | i :: rest =>
    match d.range p fn write (base + i * pitch) row with
    | (d1, .ok _, ps) =>
      match Dev.sideFor d1 p fn write base pitch row rest with
      | (d2, .ok v, more) => (d2, .ok v, ps.map (fun x => ((match x.2.1 with | .host _ => true | _ => false), x.2.1.pa, x.2.2)) ++ more)
      | r => r
    | (d1, r, _) => (d1, r, [])

/-- Whether `k` bytes of a source are bytes that the transfer writes. [DESIGN CHOICE, log 26] -/
def rewritten (dst : List (Bool × Nat × Nat)) (host : Bool) (pa k : Nat) : Bool :=
  dst.any (fun x => x.1 == host && decide (x.2.1 < pa + k) && decide (pa < x.2.1 + x.2.2))

/-- What a piece of a transfer comes to: a wait, a failed translation, or its bytes are moved. [DESIGN CHOICE, log 26] -/
def Dev.movePiece (d : Dev) (p : Nat) (t : Task) (x : Xfer) (dst : List (Bool × Nat × Nat)) (m : Nat) : Dev × Cp :=
  let fn := d.fnOfQueue t.q
  let k := x.piece m
  let put := fun (e : Dev) (v : Nat) =>
    match e.translate p fn (x.dstAt m) true with
    | (e1, .wait) => (e1, Cp.wait)
    | (e1, y) => match y.line with
      | none => (e1, .fault)
      | some l => match e1.engineWrite p l (y.pa % 128) k v t.acct with
        | (e2, true) => (e2, .ok 0)
        | (e2, false) => (e2, .wait)
  match x.src with
  | none => put d ((x.pat * ((2 ^ (64 * 17) - 1) / (2 ^ 64 - 1))) >>> (8 * (m % 8)))
  | some _ =>
    match d.translate p fn (x.srcAt m) false with
    | (d1, .wait) => (d1, .wait)
    | (d1, y) => match y.line with
      | none => (d1, .fault)
      | some l =>
        if rewritten dst l.host y.pa k then
          let (n, d2) := d1.takeFresh
          match put d2 (Config.overlapData n).toNat with
          | (d3, .ok v) => (d3, .ok v)
          | (d3, r) => ({ d3 with fresh := d1.fresh }, r)
        else match d1.engineRead p l (y.pa % 128) k t.acct with
          | (d2, none) => (d2, .wait)
          | (d2, some v) => put d2 v

/-- Moves pieces from byte `m` on; where it stands when a piece must wait or fails. -/
def Dev.moveFor (d : Dev) (p : Nat) (t : Task) (x : Xfer) (dst : List (Bool × Nat × Nat)) : Nat → Nat → Dev × Cp × Nat
  | 0, m => (d, .ok 0, m)
  | fuel + 1, m =>
    if m ≥ x.total then (d, .ok 0, m)
    else match d.movePiece p t x dst m with
      | (d1, .ok _) => Dev.moveFor d1 p t x dst fuel (m + x.piece m)
      | (d1, r) => (d1, r, m)

/-- A transfer task: its fields and translations are checked when it starts; `ok` says that its fields are in range. -/
def Dev.transfer (d : Dev) (p : Nat) (t : Task) (ok : Bool) (x : Xfer) : Dev :=
  let fn := d.fnOfQueue t.q
  if t.work = .none && (!ok || x.overlapsVa) then d.finish p t stBadDescriptor 0 true
  else
    let rows := List.range x.rows
    match (match x.src with | some s => d.sideFor p fn false s x.sp x.row rows | none => (d, .ok 0, [])) with
    | (d1, .wait, _) => d1
    | (d1, .fault, _) => if t.work = .none then d1.finish p t stFetchFault 0 true else d1.workDone t stFetchFault (d1.infoSoFar t)
    | (d1, .ok _, _) => match d1.sideFor p fn true x.dst x.dp x.row rows with
      | (d2, .wait, _) => d2
      | (d2, .fault, _) => if t.work = .none then d2.finish p t stFetchFault 0 true else d2.workDone t stFetchFault (d2.infoSoFar t)
      | (d2, .ok _, dst) =>
        let from' := match t.work with | .moved m _ => m | _ => 0
        match d2.moveFor p t x dst (x.total - from') from' with
        | (d3, .ok _, m) => d3.workDone { t with work := .moved m m } 0 m
        | (d3, .fault, m) => d3.workDone { t with work := .moved m m } stFetchFault m
        | (d3, .wait, m) => d3.setTask { t with work := .moved m m }

/-- COPY (R352). -/
def doCopy (q i : Nat) (d : Dev) : Dev :=
  match d.working q i 0x10 with
  | none => d
  | some (p, t) =>
    let n := t.body 2
    d.transfer p t (t.aux16 == 0 && t.aux32 == 0 && t.body 3 == 0 && decide (1 ≤ n) && decide (n ≤ 2 ^ 48))
      { src := some (t.body 0), dst := t.body 1, row := n, rows := 1 }

def execCopy (q i : Nat) (s : State) : Host.Outcome State Fault Refusal := done s (doCopy q i s.dev)

/-- COPY_2D: with 0 rows it moves nothing (R352). -/
def doCopy2d (q i : Nat) (d : Dev) : Dev :=
  match d.working q i 0x11 with
  | none => d
  | some (p, t) =>
    let sp := t.body 2 % 2 ^ 32
    let dp := t.body 2 / 2 ^ 32
    d.transfer p t (t.aux16 == 0 && t.body 3 / 2 ^ 32 == 0 && decide (1 ≤ t.aux32) && decide (t.aux32 ≤ sp) && decide (t.aux32 ≤ dp))
      { src := some (t.body 0), dst := t.body 1, row := t.aux32, rows := t.body 3 % 2 ^ 32, sp := sp, dp := dp }

def execCopy2d (q i : Nat) (s : State) : Host.Outcome State Fault Refusal := done s (doCopy2d q i s.dev)

/-- FILL with a 64-bit pattern (R352). -/
def doTaskFill (q i : Nat) (d : Dev) : Dev :=
  match d.working q i 0x12 with
  | none => d
  | some (p, t) =>
    let n := t.body 1
    d.transfer p t (t.aux16 == 0 && t.aux32 == 0 && t.body 3 == 0 && t.body 0 % 8 == 0 && n % 8 == 0)
      { src := none, dst := t.body 0, row := n, rows := 1, pat := t.body 2 }

def execTaskFill (q i : Nat) (s : State) : Host.Outcome State Fault Refusal := done s (doTaskFill q i s.dev)

/-! ## COPY_REDUCE -/

/-- Source bytes of an element of a RED type. -/
def redSrcWidth (ty : Nat) : Nat := if ty = 1 then 2 else if ty < 4 then 4 else 8

/-- Whether a RED type belongs to a class (R142, R284). -/
def redTypeOk (cls : RedClass) (ty : Nat) : Bool :=
  decide (ty < 6) && (redClass .add ty == cls || redClass .min ty == cls || redClass .max ty == cls)

/-- Contributions from element `m` on, one to each line; the elements done and the contributions made. -/
def Dev.reduceFor (d : Dev) (p : Nat) (t : Task) (ty : Nat) (desc : RedDesc) (n : Nat) : Nat → Nat → Nat → Dev × Cp × Nat × Nat
  | 0, m, c => (d, .ok 0, m, c)
  | fuel + 1, m, c =>
    if m ≥ n then (d, .ok 0, m, c)
    else
      let fn := d.fnOfQueue t.q
      let e := desc.cls.width
      let w := redSrcWidth ty
      let va := t.body 1 + e * m
      let k := min (n - m) ((128 - va % 128) / e)
      match d.translate p fn va true with
      | (d1, .wait) => (d1, .wait, m, c)
      | (d1, y) => match y.line with
        | none => (d1, .fault, m, c)
        | some l => match d1.cpRead p fn (t.body 0 + w * m) (w * k) t.acct with
          | (d2, .ok v) =>
            match d2.homeSlice p l with
            | none => (d2, .fault, m, c)
            | some h =>
              let (id, d3) := d2.takeId
              let u := UnitId.copyEngine (bindNum (bindByte (d.queue t.q).binding t.slot))
              let elems := (List.range k).map (fun j => (y.pa % 128 / e + j, redValue ty (bytesAt v (w * j) w)))
              let d4 : Dev := { d3 with engOuts := d3.engOuts ++ [{ id := id, unit := u, q := t.q, i := t.i, line := l.n, host := l.host, sent := d3.coh }] }
              Dev.reduceFor (d4.send { src := u, dst := .slice h, rid := id, acct := t.acct, body := .redc l desc elems false }) p t ty desc n fuel (m + k) (c + 1)
          | (d2, r) => (d2, r, m, c)

/-- COPY_REDUCE (R352): one contribution to each reduction line its destination touches. -/
def doCopyReduce (q i : Nat) (d : Dev) : Dev :=
  match d.working q i 0x13 with
  | none => d
  | some (p, t) =>
    let ty := t.aux16 / 2 ^ 8 % 8
    let len := t.body 2
    let w := redSrcWidth ty
    match RedClass.ofCode (t.aux16 % 256) with
    | none => d.finish p t stBadDescriptor 0 true
    | some cls =>
      let n := len / w
      let overlap : Bool := decide (t.body 0 < t.body 1 + n * cls.width) && decide (t.body 1 < t.body 0 + len)
      if t.aux16 / 2 ^ 11 ≠ 0 || !redTypeOk cls ty || len % w != 0 || t.body 0 % w != 0 || t.body 1 % cls.width != 0 || t.body 3 % 8 != 0 || overlap then
        d.finish p t stBadDescriptor 0 true
      else
        let fn := d.fnOfQueue q
        match d.descr p fn cls (t.body 3) (t.aux32 + (if t.body 3 = 0 then 0 else 2 ^ 32)) with
        | .fault => d.finish p t stFetchFault 0 true
        | .wait d1 => d1
        | .ok d1 desc =>
          let (from', c0, fresh) := match t.work with | .moved m c => (m, c, false) | _ => (0, 0, true)
          match (if fresh then d1.range p fn false (t.body 0) len else (d1, .ok 0, [])) with
          | (d2, .wait, _) => d2
          | (d2, .fault, _) => d2.finish p t stFetchFault 0 true
          | (d2, .ok _, _) => match (if fresh then d2.range p fn true (t.body 1) (n * cls.width) else (d2, .ok 0, [])) with
            | (d3, .wait, _) => d3
            | (d3, .fault, _) => d3.finish p t stFetchFault 0 true
            | (d3, .ok _, _) => match d3.reduceFor p t ty desc n (n - from') from' c0 with
              | (d4, .ok _, m, c) => d4.workDone { t with work := .moved m c } 0 c
              | (d4, .fault, m, c) => d4.workDone { t with work := .moved m c } stFetchFault c
              | (d4, .wait, m, c) => d4.setTask { t with work := .moved m c }

def execCopyReduce (q i : Nat) (s : State) : Host.Outcome State Fault Refusal := done s (doCopyReduce q i s.dev)

end Sys2Proof.Machine
end

