-- ==== Sys2Proof/Machine/Convert.lean ====
section
/-! DEFINITION. Conversions: format codes R178, CVT R182, CVT.PACK R183, CVT.UNPACK R184, stochastic rounding
R185-R187. -/

namespace Sys2Proof.Machine

/-- An integer format (R173): width and signedness. -/
structure IFmt where
  width  : Nat
  signed : Bool
  deriving DecidableEq, Repr

/-- What a format code names (R178). `mxint8` is the element of R175; the scaled codes carry their element and
whether their scale is UE5M3. -/
inductive FmtCode where
  | flt (f : Fmt)
  | int (i : IFmt)
  | scaled (f : Fmt) (ueScale : Bool)
  | scaledInt8
  deriving DecidableEq, Repr

/-- The format codes (R178); none where reserved. -/
def fmtOfCode (c : Nat) : Option FmtCode :=
  match c with
  | 0x00 => some (.flt fp32) | 0x01 => some (.flt fp64) | 0x02 => some (.flt fp16) | 0x03 => some (.flt bf16)
  | 0x04 => some (.flt e4m3) | 0x05 => some (.flt e5m2) | 0x06 => some (.flt e2m3) | 0x07 => some (.flt e3m2)
  | 0x08 => some (.flt e2m1) | 0x09 => some (.flt e8m0) | 0x0A => some (.int ⟨4, true⟩)
  | 0x0B => some (.int ⟨4, false⟩) | 0x0C => some (.flt ue5m3)
  | 0x10 => some (.int ⟨8, true⟩) | 0x11 => some (.int ⟨8, false⟩) | 0x12 => some (.int ⟨16, true⟩)
  | 0x13 => some (.int ⟨16, false⟩) | 0x14 => some (.int ⟨32, true⟩) | 0x15 => some (.int ⟨32, false⟩)
  | 0x16 => some (.int ⟨64, true⟩) | 0x17 => some (.int ⟨64, false⟩)
  | 0x18 => some (.scaled e4m3 false) | 0x19 => some (.scaled e5m2 false) | 0x1A => some (.scaled e2m3 false)
  | 0x1B => some (.scaled e3m2 false) | 0x1C => some (.scaled e2m1 false) | 0x1D => some .scaledInt8
  | 0x1E => some (.scaled e2m1 true)
  | _ => none

/-- Width of an element of the format. -/
def FmtCode.width : FmtCode → Nat
  | .flt f => f.width
  | .int i => i.width
  | .scaled f _ => f.width
  | .scaledInt8 => 8

def FmtCode.isScaled : FmtCode → Bool
  | .scaled _ _ | .scaledInt8 => true
  | _ => false

/-- The destination codes CVT.PACK accepts (R183). -/
def packAccepts (c : Nat) : Bool :=
  match fmtOfCode c with
  | some (.int i) => i.width ≤ 16
  | some (.flt f) => f.width ≤ 16
  | some _ => true
  | none => false

/-! ## The RS hash (R186) -/

def rsMix (x0 : BitVec 64) : BitVec 64 :=
  let x := x0 ^^^ (x0 >>> 31)
  let x := x * 0xD6E8FEB86659FD93#64
  let x := x ^^^ (x >>> 29)
  let x := x * 0xA3B195C42F478E69#64
  x ^^^ (x >>> 32)

def rsBits (seed k : BitVec 64) : Nat :=
  let x := rsMix (k ^^^ seed)
  ((rsMix (x ^^^ seed.rotateRight 23)) >>> 32).toNat

/-- The mode RS at byte address `a` and bit offset `o` (R185). -/
def rsMode (seed : DWord) (a o : Nat) : Rnd :=
  .rs (rsBits seed (BitVec.ofNat 64 (8 * (a % 2 ^ 56) + o)))

/-! ## Integers -/

def IFmt.lo (i : IFmt) : Int := if i.signed then -(2 ^ (i.width - 1) : Nat) else 0
def IFmt.hi (i : IFmt) : Int := if i.signed then (2 ^ (i.width - 1) : Nat) - 1 else (2 ^ i.width : Nat) - 1

/-- The value of an integer code. -/
def IFmt.decode (i : IFmt) (code : Nat) : Int :=
  let c := code % 2 ^ i.width
  if i.signed && c.testBit (i.width - 1) then (c : Int) - (2 ^ i.width : Nat) else c

/-- The low bits of an integer as a code. -/
def IFmt.encode (i : IFmt) (v : Int) : Nat := (v % (2 ^ i.width : Nat)).toNat

/-- An integer as an exact value; an integer zero is +0. -/
def Exact.ofInt (v : Int) : Exact := ⟨decide (v < 0), v.natAbs, 0, false⟩

/-- A value rounded to an integer format: NaN gives 0, infinities and values out of range the minimum or maximum,
each with invalid (R182, R194). -/
def IFmt.ofNum (i : IFmt) (mode : Rnd) (x : Num) : FpRes :=
  match x with
  | .nan _ => ⟨0, flagInvalid⟩
  | .inf s => ⟨i.encode (if s then i.lo else i.hi), flagInvalid⟩
  | .fin x =>
    let (q, inexact) := roundAt mode x 0
    let v : Int := if x.neg then -(q : Int) else q
    if v < i.lo then ⟨i.encode i.lo, flagInvalid⟩
    else if v > i.hi then ⟨i.encode i.hi, flagInvalid⟩
    else ⟨i.encode v, if inexact then flagInexact else 0⟩

/-- A value converted to an MXINT8 element, the quotient already scaled (R183). -/
def mxint8OfNum (mode : Rnd) (x : Num) : FpRes :=
  match x with
  | .nan _ => ⟨0, flagInvalid⟩
  | .inf s => ⟨if s then 0x80 else 0x7F, flagOverflow⟩
  | .fin x =>
    let (q, inexact) := roundAt mode x 0
    let v : Int := if x.neg then -(q : Int) else q
    if v > 127 then ⟨0x7F, flagOverflow ||| flagInexact⟩
    else if v < -128 then ⟨0x80, flagOverflow ||| flagInexact⟩
    else ⟨(v % 256).toNat, if inexact then flagInexact else 0⟩

/-! ## CVT (R182) -/

/-- A value converted to a floating-point format (R180, R182, R194). [DEDUCED, log 12] -/
def Fmt.ofNum (f : Fmt) (mode : Rnd) (sat : Bool) (x : Num) : FpRes :=
  match f.style with
  | .ieee =>
    match x with
    | .nan i => ⟨f.canon, if i then flagInvalid else 0⟩
    | .inf s => ⟨f.infCode s, 0⟩
    | .fin v => f.round mode sat v
  | .e4m3 =>
    match x with
    | .nan i => ⟨f.canon, if i then flagInvalid else 0⟩
    | .inf s => ⟨if sat then f.maxCode s else f.canon, flagOverflow⟩
    | .fin v => f.round mode sat v
  | .finite =>
    match x with
    | .nan _ => ⟨0, flagInvalid⟩
    | .inf s => ⟨f.maxCode s, flagOverflow⟩
    | .fin v => f.round mode sat v
  | .e8m0 =>
    match x with
    | .nan _ => ⟨0xFF, flagInvalid⟩
    | .inf true => ⟨0xFF, flagInvalid ||| flagOverflow⟩
    | .inf false => ⟨if sat then f.maxCode false else 0xFF, flagOverflow⟩
    | .fin v => if v.neg || v.m = 0 then ⟨0xFF, flagInvalid⟩ else f.round mode sat v
  | .ue5m3 =>
    match x with
    | .nan _ => ⟨0xFF, flagInvalid⟩
    | .inf true => ⟨0xFF, flagInvalid ||| flagOverflow⟩
    | .inf false => ⟨if sat then f.maxCode false else 0xFF, flagOverflow⟩
    | .fin v =>
      if v.m = 0 then ⟨0, 0⟩ else if v.neg then ⟨0xFF, flagInvalid⟩ else f.round mode sat v

/-- The value of a code in a format; integers are exact numbers, an MXINT8 element is q · 2^-6 (R175, R184). -/
def FmtCode.value (c : FmtCode) (code : Nat) : Num :=
  match c with
  | .flt f => f.decode code
  | .scaled f _ => f.decode code
  | .int i => .fin (Exact.ofInt (i.decode code))
  | .scaledInt8 => let v := Exact.ofInt ((⟨8, true⟩ : IFmt).decode code); .fin { v with e := -6 }

/-- Conversion of one value (R182): integer to integer wraps, or clamps with .SAT, and raises nothing. -/
def convert (src dst : FmtCode) (mode : Rnd) (sat : Bool) (a : Nat) : FpRes :=
  match src, dst with
  | .int i, .int j =>
    let v := i.decode a
    if sat then ⟨j.encode (max j.lo (min j.hi v)), 0⟩ else ⟨j.encode v, 0⟩
  | s, .int j => j.ofNum mode (s.value a)
  | s, .flt f => f.ofNum mode sat (s.value a)
  | s, .scaled f _ => f.ofNum mode sat (s.value a)
  | s, .scaledInt8 => mxint8OfNum mode (s.value a)

/-- A narrow result as CVT writes it: signed integers sign-extended to bit 31, all others zero-extended (R182). -/
def extendNarrow (dst : FmtCode) (code : Nat) : Nat :=
  match dst with
  | .int ⟨w, true⟩ => if w < 32 && code.testBit (w - 1) then code + (2 ^ 32 - 2 ^ w) else code
  | _ => code

/-! ## CVT.PACK and CVT.UNPACK -/

/-- The exact quotient of an FP32 value and a nonzero block scale (R183); 2^`extra` multiplies the scale. [DEDUCED, log 12] -/
def scaledQuotient (ue : Bool) (scale : Nat) (extra : Int) (x : Num) : Num :=
  let sf := if ue then ue5m3 else e8m0
  match sf.decode scale, x with
    | .nan _, v => .nan v.isSnan
    | _, .nan i => .nan i
    | _, .inf s => .inf s
    | .fin s, .fin v =>
      if v.m = 0 then .fin ⟨v.neg, 0, 0, false⟩ else .fin (quotient v ⟨false, s.m, s.e + extra, false⟩)
    | .inf _, .fin v => .fin v

/-- One element of CVT.PACK from the FP32 value `x` (R183). [DEDUCED, log 12] -/
def packElement (dst : FmtCode) (mode : Rnd) (sat : Bool) (scale : Nat) (x : Nat) : FpRes :=
  match dst with
  | .scaled f true =>
    if scale = 0 then
      ⟨f.zero (fp32.signOf x), match fp32.decode x with
        | .nan _ => flagInvalid
        | .inf _ => flagOverflow
        | .fin _ => 0⟩
    else f.ofNum mode sat (scaledQuotient true scale 0 (fp32.decode x))
  | .scaled f false => f.ofNum mode sat (scaledQuotient false scale 0 (fp32.decode x))
  | .scaledInt8 => mxint8OfNum mode (scaledQuotient false scale (-6) (fp32.decode x))
  | d => convert (.flt fp32) d mode sat x

/-- The packed elements from bit 0 upward, with the flags of all (R174, R183). `mode o` is the mode at bit
offset o. -/
def packFrom (dst : FmtCode) (mode : Nat → Rnd) (sat : Bool) (scale : Nat) : List Nat → Nat → FpRes
  | [], _ => ⟨0, 0⟩
  | x :: xs, o =>
    let r := packElement dst (mode o) sat scale x
    let rest := packFrom dst mode sat scale xs (o + dst.width)
    ⟨r.code <<< o + rest.code, r.flags ||| rest.flags⟩

/-- CVT.UNPACK (R184): element b of a as FP32. [DEDUCED, log 12; DESIGN CHOICE, log 13] -/
def unpack (srcCode : Nat) (src : FmtCode) (a b : Word) : FpRes :=
  let w := src.width
  if w > 32 then ⟨(Config.unpackOpen srcCode a b).toNat, 0⟩
  else
    let n := if w = 6 then 4 else 32 / w
    let j := b.toNat % n
    let x := src.value (bitsOf a.toNat (w * j + w - 1) (w * j))
    let r := fp32.ofNum .rn false x
    match src with
    | .int _ => if r.flags = 0 then r else ⟨(Config.unpackOpen srcCode a b).toNat, 0⟩
    | _ => r

end Sys2Proof.Machine
end

