-- ==== Sys2Proof/Machine/Float.lean ====
section
/-! DEFINITION. Floating-point and conversion instructions (04 R150, R142, 05 R182-R187). -/

namespace Sys2Proof.Machine

open Sys2Proof

/-! ## Modifiers (R142): type [1:0], rnd [4:2], na, nb, nc [7:5], aa, ab [9:8] -/

def fpType (w : FmtA) : Nat := w.mod.toNat % 4
def fpRegs (w : FmtA) : Nat := if fpType w = 1 then 2 else 1

/-- The format of the elements. -/
def fpFmt (w : FmtA) : Fmt :=
  match fpType w with
  | 0 => fp32
  | 1 => fp64
  | 2 => fp16
  | _ => bf16

/-- The rounding mode named (R179). -/
def rndOf (n : Nat) : Rnd :=
  match n % 4 with
  | 0 => .rn
  | 1 => .rz
  | 2 => .ru
  | _ => .rd

def fpRnd (w : FmtA) : Rnd := rndOf (bitsOf w.mod.toNat 4 2)

/-- A source with the absolute value taken first, then negated (R142). -/
def Fmt.modify (f : Fmt) (ab ng : Bool) (x : Nat) : Nat :=
  let x1 := if ab then x % 2 ^ (f.width - 1) else x % 2 ^ f.width
  if ng then x1 ^^^ 2 ^ (f.width - 1) else x1

/-- Legal modifiers: types below `types` in the list, rnd 0 where `rn`, no sign bit of an operand not used
(R136, R142). -/
def fpModOk (w : FmtA) (types : List Nat) (rnAll hasB hasC : Bool) : Bool :=
  let r := bitsOf w.mod.toNat 4 2
  types.contains (fpType w) && (if rnAll then decide (r < 4) else r == 0)
    && (hasB || !(w.mod.getLsbD 6 || w.mod.getLsbD 9)) && (hasC || !w.mod.getLsbD 7) && !w.mod.getLsbD 10

/-- Applies an operation to each element of the operands (R174), with the modifiers. -/
def fpApply (w : FmtA) (op : Fmt → Nat → Nat → Nat → FpRes) (a b c : Nat) : Res :=
  let f := fpFmt w
  let el := fun (k : Nat) =>
    op f (f.modify (w.mod.getLsbD 8) (w.mod.getLsbD 5) (a >>> (f.width * k)))
      (f.modify (w.mod.getLsbD 9) (w.mod.getLsbD 6) (b >>> (f.width * k)))
      (f.modify false (w.mod.getLsbD 7) (c >>> (f.width * k)))
  let r0 := el 0
  if f.width = 16 then
    let r1 := el 1
    { val := r0.code + 2 ^ 16 * r1.code, flags := r0.flags ||| r1.flags }
  else { val := r0.code, flags := r0.flags }

/-- Operands of a floating-point instruction with one, two or three sources. -/
def fpSpec (w : FmtA) (types : List Nat) (rnAll : Bool) (srcs : Nat) : ASpec :=
  { d := .reg (fpRegs w), a := .reg (fpRegs w), b := if srcs ≥ 2 then .reg (fpRegs w) else .unused,
    c := if srcs ≥ 3 then .reg (fpRegs w) else .unused, modOk := fpModOk w types rnAll (srcs ≥ 2) (srcs ≥ 3),
    long := srcs ≥ 2, uni := true }

/-- Issue of a floating-point instruction (R150). -/
def Dev.issueFp (d : Dev) (g : GroupRef) (w : FmtA) (types : List Nat) (rnAll : Bool) (srcs s1 s64 : Nat)
    (op : Fmt → Nat → Nat → Nat → FpRes) : Dev :=
  d.issueAlu g w (fpSpec w types rnAll srcs) (if fpType w = 1 then s64 else s1) (fpApply w op)

/-- FADD: one rounding of a + b (R150). -/
def doFadd (g : GroupRef) (w : FmtA) (d : Dev) : Dev :=
  d.issueFp g w [0, 1, 2, 3] true 2 1 8 (fun f a b _ => f.accumulate (fpRnd w) [f.decode a, f.decode b])

def execFadd (g : GroupRef) (w : FmtA) (s : State) : Host.Outcome State Fault Refusal := done s (doFadd g w s.dev)

/-- FMUL: one rounding of a · b (R150). -/
def doFmul (g : GroupRef) (w : FmtA) (d : Dev) : Dev :=
  d.issueFp g w [0, 1, 2, 3] true 2 1 8 (fun f a b _ => f.accumulate (fpRnd w) [(f.decode a).mul (f.decode b)])

def execFmul (g : GroupRef) (w : FmtA) (s : State) : Host.Outcome State Fault Refusal := done s (doFmul g w s.dev)

/-- FFMA: one rounding of a · b + c (R150). -/
def doFfma (g : GroupRef) (w : FmtA) (d : Dev) : Dev :=
  d.issueFp g w [0, 1, 2, 3] true 3 1 8 (fun f a b c => f.accumulate (fpRnd w) [(f.decode a).mul (f.decode b), f.decode c])

def execFfma (g : GroupRef) (w : FmtA) (s : State) : Host.Outcome State Fault Refusal := done s (doFfma g w s.dev)

/-- FMIN: IEEE 754-2019 minimum (R150). -/
def doFmin (g : GroupRef) (w : FmtA) (d : Dev) : Dev :=
  d.issueFp g w [0, 1, 2, 3] false 2 1 2 (fun f a b _ => f.minMax false a b)

def execFmin (g : GroupRef) (w : FmtA) (s : State) : Host.Outcome State Fault Refusal := done s (doFmin g w s.dev)

/-- FMAX: IEEE 754-2019 maximum (R150). -/
def doFmax (g : GroupRef) (w : FmtA) (d : Dev) : Dev :=
  d.issueFp g w [0, 1, 2, 3] false 2 1 2 (fun f a b _ => f.minMax true a b)

def execFmax (g : GroupRef) (w : FmtA) (s : State) : Host.Outcome State Fault Refusal := done s (doFmax g w s.dev)

/-- FRCP (R150). -/
def doFrcp (g : GroupRef) (w : FmtA) (d : Dev) : Dev :=
  d.issueFp g w [0, 1] false 1 4 16 (fun f a _ _ => f.rcp (f.decode a))

def execFrcp (g : GroupRef) (w : FmtA) (s : State) : Host.Outcome State Fault Refusal := done s (doFrcp g w s.dev)

/-- FDIV (R150). -/
def doFdiv (g : GroupRef) (w : FmtA) (d : Dev) : Dev :=
  d.issueFp g w [0, 1] false 2 8 32 (fun f a b _ => f.div (f.decode a) (f.decode b))

def execFdiv (g : GroupRef) (w : FmtA) (s : State) : Host.Outcome State Fault Refusal := done s (doFdiv g w s.dev)

/-- FSQRT (R150). -/
def doFsqrt (g : GroupRef) (w : FmtA) (d : Dev) : Dev :=
  d.issueFp g w [0, 1] false 1 8 32 (fun f a _ _ => f.sqrt (f.decode a))

def execFsqrt (g : GroupRef) (w : FmtA) (s : State) : Host.Outcome State Fault Refusal := done s (doFsqrt g w s.dev)

/-- FRSQ (R150). -/
def doFrsq (g : GroupRef) (w : FmtA) (d : Dev) : Dev :=
  d.issueFp g w [0] false 1 4 4 (fun f a _ _ => f.rsq (f.decode a))

def execFrsq (g : GroupRef) (w : FmtA) (s : State) : Host.Outcome State Fault Refusal := done s (doFrsq g w s.dev)

/-- FEX2 (R150, R220). -/
def doFex2 (g : GroupRef) (w : FmtA) (d : Dev) : Dev :=
  d.issueFp g w [0] false 1 4 4 (fun f a _ _ => f.ex2 (f.decode a))

def execFex2 (g : GroupRef) (w : FmtA) (s : State) : Host.Outcome State Fault Refusal := done s (doFex2 g w s.dev)

/-- FLG2 (R150). -/
def doFlg2 (g : GroupRef) (w : FmtA) (d : Dev) : Dev :=
  d.issueFp g w [0] false 1 4 4 (fun f a _ _ => f.lg2 (f.decode a))

def execFlg2 (g : GroupRef) (w : FmtA) (s : State) : Host.Outcome State Fault Refusal := done s (doFlg2 g w s.dev)

/-- FSIN (R150). -/
def doFsin (g : GroupRef) (w : FmtA) (d : Dev) : Dev :=
  d.issueFp g w [0] false 1 4 4 (fun f a _ _ => f.trig false (f.decode a))

def execFsin (g : GroupRef) (w : FmtA) (s : State) : Host.Outcome State Fault Refusal := done s (doFsin g w s.dev)

/-- FCOS (R150). -/
def doFcos (g : GroupRef) (w : FmtA) (d : Dev) : Dev :=
  d.issueFp g w [0] false 1 4 4 (fun f a _ _ => f.trig true (f.decode a))

def execFcos (g : GroupRef) (w : FmtA) (s : State) : Host.Outcome State Fault Refusal := done s (doFcos g w s.dev)

/-- FTANH (R150). -/
def doFtanh (g : GroupRef) (w : FmtA) (d : Dev) : Dev :=
  d.issueFp g w [0, 2, 3] false 1 4 4 (fun f a _ _ => f.tanh (f.decode a))

def execFtanh (g : GroupRef) (w : FmtA) (s : State) : Host.Outcome State Fault Refusal := done s (doFtanh g w s.dev)

/-! ## Conversions (R182-R187): dst [4:0], src [9:5], sat [10] -/

def cvtDst (w : FmtA) : Nat := w.mod.toNat % 32
def cvtSrc (w : FmtA) : Nat := bitsOf w.mod.toNat 9 5

/-- A code that CVT and CVT.RS accept: not reserved, not scaled (R178). -/
def cvtCode (n : Nat) : Option FmtCode :=
  match fmtOfCode n with
  | some c => if c.isScaled then none else some c
  | none => none

def codeRegs (c : Option FmtCode) : Nat := match c with | some x => if x.width > 32 then 2 else 1 | none => 1

/-- The value CVT and CVT.RS write (R182). -/
def cvtValue (w : FmtA) (mode : Rnd) (a : Nat) : Res :=
  match cvtCode (cvtSrc w), cvtCode (cvtDst w) with
  | some s, some t =>
    let r := convert s t mode (w.mod.getLsbD 10) a
    { val := extendNarrow t r.code, flags := r.flags }
  | _, _ => { val := 0 }

/-- Operands of CVT; its c field holds the mode and is checked apart (R142). -/
def cvtSpec (w : FmtA) : ASpec :=
  { d := .reg (codeRegs (cvtCode (cvtDst w))), a := .reg (codeRegs (cvtCode (cvtSrc w))),
    modOk := (cvtCode (cvtDst w)).isSome && (cvtCode (cvtSrc w)).isSome && decide (w.c.toNat < 4), uni := true }

/-- CVT: slots 8 where either format is FP64 (R146). -/
def doCvt (g : GroupRef) (w : FmtA) (d : Dev) : Dev :=
  d.issueGroup g (fun c => aUses c.grp.nv { w with c := 0 } (cvtSpec w)) true
    (if cvtDst w = 1 || cvtSrc w = 1 then 8 else 1) 8
    (aluEffect w (cvtSpec w) (fun a _ _ => cvtValue w (rndOf w.c.toNat) a))

def execCvt (g : GroupRef) (w : FmtA) (s : State) : Host.Outcome State Fault Refusal := done s (doCvt g w s.dev)

/-- Operands of CVT.RS: c a pair or a uniform register (R142). -/
def cvtRsSpec (w : FmtA) : ASpec :=
  { d := .reg (codeRegs (cvtCode (cvtDst w))), a := .reg (codeRegs (cvtCode (cvtSrc w))), c := .reg 2,
    modOk := (cvtCode (cvtDst w)).isSome && (cvtCode (cvtSrc w)).isSome }

/-- CVT.RS (R185). -/
def doCvtRs (g : GroupRef) (w : FmtA) (d : Dev) : Dev :=
  d.issueGroup g (fun c => aUses c.grp.nv w (cvtRsSpec w)) true 2 8
    (fun c => aluEffect w (cvtRsSpec w) (fun a _ x => cvtValue w (rsMode c.grp.seed x 0) a) c)

def execCvtRs (g : GroupRef) (w : FmtA) (s : State) : Host.Outcome State Fault Refusal := done s (doCvtRs g w s.dev)

/-- CVT.PACK: rnd [7:5], cp [8], sat [9] (R142). -/
def packRnd (w : FmtA) : Nat := bitsOf w.mod.toNat 7 5
def packCp (w : FmtA) : Bool := w.mod.getLsbD 8
def packWidth (w : FmtA) : Nat := match fmtOfCode (cvtDst w) with | some c => c.width | none => 16
def packScaled (w : FmtA) : Bool := match fmtOfCode (cvtDst w) with | some c => c.isScaled | none => false

/-- Registers of each source of CVT.PACK (R183). -/
def packRegs (w : FmtA) : Nat := if packWidth w = 16 then 1 else if packWidth w = 4 then 4 else 2

def packSpec (w : FmtA) : ASpec :=
  { d := .reg 1, a := .reg (packRegs w), b := .reg (packRegs w), c := if packCp w then .reg 2 else .unused,
    modOk := packAccepts (cvtDst w) && decide (packRnd w < 5) && !w.mod.getLsbD 10
      && (packCp w == (packScaled w || packRnd w == 4)) }

/-- The 32-bit values of an operand, the first register first. -/
def words (x : Nat) : Nat → List Nat
  | 0 => []
  | n + 1 => x % 2 ^ 32 :: words (x / 2 ^ 32) n

/-- The value of CVT.PACK (R183). -/
def packValue (w : FmtA) (seed : DWord) (a b c : Nat) : Res :=
  match fmtOfCode (cvtDst w) with
  | none => { val := 0 }
  | some t =>
    let mode := fun o => if packRnd w = 4 then rsMode seed c o else rndOf (packRnd w)
    let r := packFrom t mode (w.mod.getLsbD 9) (c / 2 ^ 56 % 256) (words a (packRegs w) ++ words b (packRegs w)) 0
    { val := r.code, flags := r.flags }

/-- CVT.PACK (R183). -/
def doCvtPack (g : GroupRef) (w : FmtA) (d : Dev) : Dev :=
  d.issueGroup g (fun c => aUses c.grp.nv w (packSpec w)) true 2 8
    (fun c => aluEffect w (packSpec w) (packValue w c.grp.seed) c)

def execCvtPack (g : GroupRef) (w : FmtA) (s : State) : Host.Outcome State Fault Refusal := done s (doCvtPack g w s.dev)

/-- Operands of CVT.UNPACK: one register each (R184). [DEDUCED, log 11] -/
def unpackSpec (w : FmtA) : ASpec :=
  { d := .reg 1, a := .reg 1, b := .reg 1,
    modOk := (fmtOfCode (cvtSrc w)).isSome && cvtDst w == 0 && !w.mod.getLsbD 10 }

/-- CVT.UNPACK (R184). -/
def doCvtUnpack (g : GroupRef) (w : FmtA) (d : Dev) : Dev :=
  d.issueAlu g w (unpackSpec w) 2 (fun a b _ =>
    match fmtOfCode (cvtSrc w) with
    | none => { val := 0 }
    | some s => let r := unpack (cvtSrc w) s (BitVec.ofNat 32 a) (BitVec.ofNat 32 b); { val := r.code, flags := r.flags })

def execCvtUnpack (g : GroupRef) (w : FmtA) (s : State) : Host.Outcome State Fault Refusal := done s (doCvtUnpack g w s.dev)

end Sys2Proof.Machine
end

