-- ==== Sys2Proof/Machine/Integer.lean ====
section
/-! DEFINITION. Integer, logic, shift, compare and predicate instructions (04 R147-R149). -/

namespace Sys2Proof.Machine

open Sys2Proof

/-! ## Integer arithmetic (R147) -/

/-- Type codes of R142: 64-bit for U64 and S64, signed for S32 and S64. -/
def tyWide (w : FmtA) : Bool := w.mod.getLsbD 1
def tySigned (w : FmtA) : Bool := w.mod.getLsbD 0
def tyRegs (w : FmtA) : Nat := if tyWide w then 2 else 1
def tyBits (w : FmtA) : Nat := 32 * tyRegs w

/-- The integer value of an operand of the instruction's type. -/
def tyVal (w : FmtA) (x : Nat) : Int := if tySigned w then signed (tyBits w) x else x

/-- An exact result: wrapped, or clamped to the type's range with .SAT (R147). -/
def tyResult (w : FmtA) (sat : Bool) (v : Int) : Res :=
  let n := tyBits w
  let lo : Int := if tySigned w then -(2 ^ (n - 1) : Nat) else 0
  let hi : Int := if tySigned w then (2 ^ (n - 1) : Nat) - 1 else (2 ^ n : Nat) - 1
  let v' := if sat then max lo (min hi v) else v
  { val := (v' % (2 ^ n : Nat)).toNat }

/-- mod of a typed integer instruction: type in [1:0], .SAT in [2] where the instruction has it, else zeros. -/
def intModOk (w : FmtA) (sat : Bool) : Bool := w.mod.toNat < (if sat then 8 else 4)

/-- Operands d, a, b of the instruction's type. -/
def int2 (w : FmtA) (sat : Bool) : ASpec :=
  { d := .reg (tyRegs w), a := .reg (tyRegs w), b := .reg (tyRegs w), modOk := intModOk w sat, long := true, uni := true }

/-- Operands d, a, b, c of the instruction's type. -/
def int3 (w : FmtA) (sat : Bool) : ASpec := { int2 w sat with c := .reg (tyRegs w) }

/-- IDP4: the four products of 8-bit elements, signed as sa and sb give, added to c (R147). -/
def dot4 (sa sb : Bool) (a b c : Nat) : Nat :=
  let el := fun (s : Bool) (x k : Nat) => if s then signed 8 (bytesAt x k 1) else (bytesAt x k 1 : Int)
  let v : Int := (List.range 4).foldl (fun acc k => acc + el sa a k * el sb b k) (c : Int)
  (v % (2 ^ 32 : Nat)).toNat

/-- IADD (R147). -/
def doIadd (g : GroupRef) (w : FmtA) (d : Dev) : Dev :=
  d.issueAlu g w (int2 w true) (if tyWide w then 2 else 1) (fun a b _ => tyResult w (w.mod.getLsbD 2) (tyVal w a + tyVal w b))

def execIadd (g : GroupRef) (w : FmtA) (s : State) : Host.Outcome State Fault Refusal := done s (doIadd g w s.dev)

/-- ISUB (R147). -/
def doIsub (g : GroupRef) (w : FmtA) (d : Dev) : Dev :=
  d.issueAlu g w (int2 w true) (if tyWide w then 2 else 1) (fun a b _ => tyResult w (w.mod.getLsbD 2) (tyVal w a - tyVal w b))

def execIsub (g : GroupRef) (w : FmtA) (s : State) : Host.Outcome State Fault Refusal := done s (doIsub g w s.dev)

/-- IMUL.LO (R147). -/
def doImulLo (g : GroupRef) (w : FmtA) (d : Dev) : Dev :=
  d.issueAlu g w (int2 w false) (if tyWide w then 8 else 2) (fun a b _ => tyResult w false (tyVal w a * tyVal w b))

def execImulLo (g : GroupRef) (w : FmtA) (s : State) : Host.Outcome State Fault Refusal := done s (doImulLo g w s.dev)

/-- IMUL.HI: the upper half of the double-width product (R147). -/
def doImulHi (g : GroupRef) (w : FmtA) (d : Dev) : Dev :=
  d.issueAlu g w (int2 w false) (if tyWide w then 8 else 2) (fun a b _ => tyResult w false ((tyVal w a * tyVal w b) / (2 ^ tyBits w : Nat)))

def execImulHi (g : GroupRef) (w : FmtA) (s : State) : Host.Outcome State Fault Refusal := done s (doImulHi g w s.dev)

/-- IMAD.LO (R147). -/
def doImadLo (g : GroupRef) (w : FmtA) (d : Dev) : Dev :=
  d.issueAlu g w (int3 w true) (if tyWide w then 8 else 2) (fun a b c => tyResult w (w.mod.getLsbD 2) (tyVal w a * tyVal w b + tyVal w c))

def execImadLo (g : GroupRef) (w : FmtA) (s : State) : Host.Outcome State Fault Refusal := done s (doImadLo g w s.dev)

/-- IMIN (R147). -/
def doImin (g : GroupRef) (w : FmtA) (d : Dev) : Dev :=
  d.issueAlu g w (int2 w false) (if tyWide w then 2 else 1) (fun a b _ => tyResult w false (min (tyVal w a) (tyVal w b)))

def execImin (g : GroupRef) (w : FmtA) (s : State) : Host.Outcome State Fault Refusal := done s (doImin g w s.dev)

/-- IMAX (R147). -/
def doImax (g : GroupRef) (w : FmtA) (d : Dev) : Dev :=
  d.issueAlu g w (int2 w false) (if tyWide w then 2 else 1) (fun a b _ => tyResult w false (max (tyVal w a) (tyVal w b)))

def execImax (g : GroupRef) (w : FmtA) (s : State) : Host.Outcome State Fault Refusal := done s (doImax g w s.dev)

/-- IABS; the absolute value of the most negative number wraps (R147). -/
def doIabs (g : GroupRef) (w : FmtA) (d : Dev) : Dev :=
  d.issueAlu g w { d := .reg (tyRegs w), a := .reg (tyRegs w), modOk := intModOk w false, uni := true } (if tyWide w then 2 else 1)
    (fun a _ _ => tyResult w false (if tyVal w a < 0 then -(tyVal w a) else tyVal w a))

def execIabs (g : GroupRef) (w : FmtA) (s : State) : Host.Outcome State Fault Refusal := done s (doIabs g w s.dev)

/-- IDP4 (R147). -/
def doIdp4 (g : GroupRef) (w : FmtA) (d : Dev) : Dev :=
  d.issueAlu g w { d := .reg 1, a := .reg 1, b := .reg 1, c := .reg 1, modOk := decide (w.mod.toNat < 4), long := true, uni := true } 1
    (fun a b c => { val := dot4 (w.mod.getLsbD 0) (w.mod.getLsbD 1) a b c })

def execIdp4 (g : GroupRef) (w : FmtA) (s : State) : Host.Outcome State Fault Refusal := done s (doIdp4 g w s.dev)

/-! ## Logic and shift (R148, R149) -/

/-- Registers of a logic operand: w64 in mod [0] (R142). -/
def w64 (w : FmtA) : Bool := w.mod.getLsbD 0
def w64Regs (w : FmtA) : Nat := if w64 w then 2 else 1

/-- tt[a + 2b + 4c] at each of `n` bit positions (R149). -/
def lut (tt : Nat) (n a b c : Nat) : Nat :=
  (List.range n).foldl (fun acc k =>
    let i := (if a.testBit k then 1 else 0) + (if b.testBit k then 2 else 0) + (if c.testBit k then 4 else 0)
    if tt.testBit i then acc + 2 ^ k else acc) 0

/-- A shift: operand of 32 or 64 bits, count in one register (R148). -/
def shiftSpec (w : FmtA) : ASpec :=
  { d := .reg (w64Regs w), a := .reg (w64Regs w), b := .reg 1, modOk := decide (w.mod.toNat < 2), long := true, uni := true }

/-- The shift count: the low 5 or 6 bits of b (R148). -/
def shiftCount (w : FmtA) (b : Nat) : Nat := b % (if w64 w then 64 else 32)

/-- Bits set in the low `n` bits. -/
def popcount (n a : Nat) : Nat := ((List.range n).filter (fun k => a.testBit k)).length

/-- Zeros above the highest set bit of `n` bits; `n` for 0. -/
def clz (n a : Nat) : Nat := if a % 2 ^ n = 0 then n else n - 1 - (a % 2 ^ n).log2

/-- The low `n` bits in reverse order. -/
def bitReverse (n a : Nat) : Nat :=
  (List.range n).foldl (fun acc k => if a.testBit k then acc + 2 ^ (n - 1 - k) else acc) 0

/-- Position and length of BFE and BFI, the field cut at bit 31 (R148). -/
def bfPos (b : Nat) : Nat := b % 256
def bfLen (b : Nat) : Nat := min (b / 256 % 256) (32 - min (bfPos b) 32)

/-- BFE (R148): the field zero-extended or sign-extended from its top bit. -/
def bfExtract (sgn : Bool) (a b : Nat) : Nat :=
  let n := bfLen b
  let x := (a >>> bfPos b) % 2 ^ n
  if n = 0 then 0 else if sgn && x.testBit (n - 1) then x + (2 ^ 32 - 2 ^ n) else x

/-- BFI (R148): the low bits of c replace the field of a. -/
def bfInsert (a b c : Nat) : Nat :=
  let n := bfLen b
  let p := bfPos b
  if n = 0 then a else a % 2 ^ p + (c % 2 ^ n) * 2 ^ p + (a / 2 ^ (p + n)) * 2 ^ (p + n)

/-- BLUT: truth table in mod [7:0], w64 in [8] (R149). -/
def doBlut (g : GroupRef) (w : FmtA) (d : Dev) : Dev :=
  let n := if w.mod.getLsbD 8 then 2 else 1
  d.issueAlu g w { d := .reg n, a := .reg n, b := .reg n, c := .reg n, modOk := decide (w.mod.toNat < 512), long := true, uni := true } n
    (fun a b c => { val := lut (w.mod.toNat % 256) (32 * n) a b c })

def execBlut (g : GroupRef) (w : FmtA) (s : State) : Host.Outcome State Fault Refusal := done s (doBlut g w s.dev)

/-- SHL (R148). -/
def doShl (g : GroupRef) (w : FmtA) (d : Dev) : Dev :=
  d.issueAlu g w (shiftSpec w) (w64Regs w) (fun a b _ => { val := (a <<< shiftCount w b) % 2 ^ (32 * w64Regs w) })

def execShl (g : GroupRef) (w : FmtA) (s : State) : Host.Outcome State Fault Refusal := done s (doShl g w s.dev)

/-- SHR (R148). -/
def doShr (g : GroupRef) (w : FmtA) (d : Dev) : Dev :=
  d.issueAlu g w (shiftSpec w) (w64Regs w) (fun a b _ => { val := a >>> shiftCount w b })

def execShr (g : GroupRef) (w : FmtA) (s : State) : Host.Outcome State Fault Refusal := done s (doShr g w s.dev)

/-- SAR (R148). -/
def doSar (g : GroupRef) (w : FmtA) (d : Dev) : Dev :=
  d.issueAlu g w (shiftSpec w) (w64Regs w) (fun a b _ =>
    { val := ((signed (32 * w64Regs w) a / (2 ^ shiftCount w b : Nat)) % (2 ^ (32 * w64Regs w) : Nat)).toNat })

def execSar (g : GroupRef) (w : FmtA) (s : State) : Host.Outcome State Fault Refusal := done s (doSar g w s.dev)

/-- SHF: the funnel shift of c:a; direction in mod [1] (R148). -/
def doShf (g : GroupRef) (w : FmtA) (d : Dev) : Dev :=
  d.issueAlu g w { d := .reg 1, a := .reg 1, b := .reg 1, c := .reg 1, modOk := w.mod == 0 || w.mod == 2, long := true, uni := true } 1
    (fun a b c =>
      let x := c * 2 ^ 32 + a
      let n := b % 32
      { val := if w.mod.getLsbD 1 then (x >>> n) % 2 ^ 32 else ((x <<< n) >>> 32) % 2 ^ 32 })

def execShf (g : GroupRef) (w : FmtA) (s : State) : Host.Outcome State Fault Refusal := done s (doShf g w s.dev)

/-- POPC (R146). -/
def doPopc (g : GroupRef) (w : FmtA) (d : Dev) : Dev :=
  d.issueAlu g w { d := .reg 1, a := .reg (w64Regs w), modOk := decide (w.mod.toNat < 2), uni := true } 1
    (fun a _ _ => { val := popcount (32 * w64Regs w) a })

def execPopc (g : GroupRef) (w : FmtA) (s : State) : Host.Outcome State Fault Refusal := done s (doPopc g w s.dev)

/-- CLZ (R146). -/
def doClz (g : GroupRef) (w : FmtA) (d : Dev) : Dev :=
  d.issueAlu g w { d := .reg 1, a := .reg (w64Regs w), modOk := decide (w.mod.toNat < 2), uni := true } 1
    (fun a _ _ => { val := clz (32 * w64Regs w) a })

def execClz (g : GroupRef) (w : FmtA) (s : State) : Host.Outcome State Fault Refusal := done s (doClz g w s.dev)

/-- BREV (R146). -/
def doBrev (g : GroupRef) (w : FmtA) (d : Dev) : Dev :=
  d.issueAlu g w { d := .reg (w64Regs w), a := .reg (w64Regs w), modOk := decide (w.mod.toNat < 2), uni := true } (w64Regs w)
    (fun a _ _ => { val := bitReverse (32 * w64Regs w) a })

def execBrev (g : GroupRef) (w : FmtA) (s : State) : Host.Outcome State Fault Refusal := done s (doBrev g w s.dev)

/-- BFE: sgn in mod [0] (R148). -/
def doBfe (g : GroupRef) (w : FmtA) (d : Dev) : Dev :=
  d.issueAlu g w { d := .reg 1, a := .reg 1, b := .reg 1, modOk := decide (w.mod.toNat < 2), long := true, uni := true } 1
    (fun a b _ => { val := bfExtract (w.mod.getLsbD 0) a b })

def execBfe (g : GroupRef) (w : FmtA) (s : State) : Host.Outcome State Fault Refusal := done s (doBfe g w s.dev)

/-- BFI: inserts the low bits of c into a (R148). -/
def doBfi (g : GroupRef) (w : FmtA) (d : Dev) : Dev :=
  d.issueAlu g w { d := .reg 1, a := .reg 1, b := .reg 1, c := .reg 1, modOk := w.mod == 0, long := true, uni := true } 1
    (fun a b c => { val := bfInsert a b c })

def execBfi (g : GroupRef) (w : FmtA) (s : State) : Host.Outcome State Fault Refusal := done s (doBfi g w s.dev)

/-! ## Compare and predicate (R149) -/

/-- The comparison combined with p(c): comb 0 none, 1 AND, 2 OR, 3 XOR, with p(c) negated by cneg (R142). -/
def combine (comb : Nat) (cneg r pc : Bool) : Bool :=
  let x := pc != cneg
  match comb with
  | 0 => r
  | 1 => r && x
  | 2 => r || x
  | _ => r != x

/-- Integer comparison by its code (R142). -/
def intCompare (cmp : Nat) (a b : Int) : Bool :=
  match cmp with
  | 0 => a == b
  | 1 => a != b
  | 2 => decide (a < b)
  | 3 => decide (a ≤ b)
  | 4 => decide (a > b)
  | _ => decide (a ≥ b)

/-- The comparison fields of mod. -/
def cmpOf (w : FmtA) : Nat := w.mod.toNat % 8
def cmpType (w : FmtA) : Nat := w.mod.toNat / 8 % 4
def cmpComb (w : FmtA) : Nat := w.mod.toNat / 32 % 4
def cmpNeg (w : FmtA) : Bool := w.mod.getLsbD 7

/-- Operands of ISETP and FSETP: pd, a, b of `n` registers, p(c) with a comb; cneg only with a comb. [DEDUCED, log 11] -/
def cmpSpec (w : FmtA) (n : Nat) (ok : Bool) : ASpec :=
  { d := .pred, a := .reg n, b := .reg n, c := if cmpComb w = 0 then .unused else .pred,
    modOk := ok && decide (w.mod.toNat < 256) && (cmpComb w != 0 || !cmpNeg w), long := true }

/-- A compare in every lane that takes part: `f a b` is the result and its flags. -/
def cmpEffect (w : FmtA) (n : Nat) (f : Nat → Nat → Bool × Word) (c : Ctx) : Group :=
  let g := c.grp
  (lanesOf (c.lanes w.guard)).foldl (fun h lane =>
    let r := f (srcA g w lane n) (srcB g w lane n)
    let v := combine (cmpComb w) (cmpNeg w) r.1 ((g.readP w.c.toNat).getLsbD lane)
    (h.writeP w.d.toNat (laneBit lane) (if v then laneBit lane else 0)).raise r.2) g

/-- The format of an FSETP type code (R142). -/
def setpFmt (t : Nat) : Fmt :=
  match t with
  | 0 => fp32
  | 1 => fp64
  | 2 => fp16
  | _ => bf16

/-- ISETP (R149); NUM and NAN are reserved (R142). -/
def doIsetp (g : GroupRef) (w : FmtA) (d : Dev) : Dev :=
  let n := if cmpType w ≥ 2 then 2 else 1
  let v := fun (x : Nat) => if cmpType w % 2 = 1 then signed (32 * n) x else (x : Int)
  d.issueGroup g (fun c => aUses c.grp.nv w (cmpSpec w n (decide (cmpOf w < 6)))) true n (insLen w.lf)
    (cmpEffect w n (fun a b => (intCompare (cmpOf w) (v a) (v b), 0)))

def execIsetp (g : GroupRef) (w : FmtA) (s : State) : Host.Outcome State Fault Refusal := done s (doIsetp g w s.dev)

/-- FSETP (R149, R194). -/
def doFsetp (g : GroupRef) (w : FmtA) (d : Dev) : Dev :=
  let n := if cmpType w = 1 then 2 else 1
  d.issueGroup g (fun c => aUses c.grp.nv w (cmpSpec w n true)) true n (insLen w.lf)
    (cmpEffect w n (fun a b => (setpFmt (cmpType w)).compare (cmpOf w) a b))

def execFsetp (g : GroupRef) (w : FmtA) (s : State) : Host.Outcome State Fault Refusal := done s (doFsetp g w s.dev)

/-- SEL: a where p(c) is 1, else b (R149). -/
def doSel (g : GroupRef) (w : FmtA) (d : Dev) : Dev :=
  let sp : ASpec := { d := .reg 1, a := .reg 1, b := .reg 1, c := .pred, modOk := w.mod == 0, long := true }
  d.issueGroup g (fun c => aUses c.grp.nv w sp) true 1 (insLen w.lf) (fun c =>
    (lanesOf (c.lanes w.guard)).foldl (fun h lane =>
      writeD h w lane 1 (if (c.grp.readP w.c.toNat).getLsbD lane then srcA c.grp w lane 1 else srcB c.grp w lane 1)) c.grp)

def execSel (g : GroupRef) (w : FmtA) (s : State) : Host.Outcome State Fault Refusal := done s (doSel g w s.dev)

/-- PLUT: truth table in mod [7:0] over pa, pb, pc (R149). -/
def doPlut (g : GroupRef) (w : FmtA) (d : Dev) : Dev :=
  let sp : ASpec := { d := .pred, a := .pred, b := .pred, c := .pred, modOk := decide (w.mod.toNat < 256) }
  d.issueGroup g (fun c => aUses c.grp.nv w sp) true 1 (insLen w.lf) (fun c =>
    let r := BitVec.ofNat 32 (lut w.mod.toNat 32 (c.grp.readP w.a.toNat).toNat (c.grp.readP w.b.toNat).toNat (c.grp.readP w.c.toNat).toNat)
    c.grp.writeP w.d.toNat (c.lanes w.guard) r)

def execPlut (g : GroupRef) (w : FmtA) (s : State) : Host.Outcome State Fault Refusal := done s (doPlut g w s.dev)

/-- PMOV.P2V: p0-p7 to bits [7:0] of d (R149). -/
def doPmovP2v (g : GroupRef) (w : FmtA) (d : Dev) : Dev :=
  let sp : ASpec := { d := .reg 1, modOk := w.mod == 0 }
  d.issueGroup g (fun c => aUses c.grp.nv w sp) true 1 (insLen w.lf) (fun c =>
    (lanesOf (c.lanes w.guard)).foldl (fun h lane =>
      writeD h w lane 1 ((List.range 8).foldl (fun acc k => if (c.grp.readP k).getLsbD lane then acc + 2 ^ k else acc) 0)) c.grp)

def execPmovP2v (g : GroupRef) (w : FmtA) (s : State) : Host.Outcome State Fault Refusal := done s (doPmovP2v g w s.dev)

/-- PMOV.V2P: p0-p7 from bits [7:0] of a (R149). -/
def doPmovV2p (g : GroupRef) (w : FmtA) (d : Dev) : Dev :=
  let sp : ASpec := { a := .reg 1, modOk := w.mod == 0 }
  d.issueGroup g (fun c => aUses c.grp.nv w sp) true 1 (insLen w.lf) (fun c =>
    (lanesOf (c.lanes w.guard)).foldl (fun h lane =>
      let x := srcA c.grp w lane 1
      (List.range 8).foldl (fun h k => h.writeP k (laneBit lane) (if x.testBit k then laneBit lane else 0)) h) c.grp)

def execPmovV2p (g : GroupRef) (w : FmtA) (s : State) : Host.Outcome State Fault Refusal := done s (doPmovV2p g w s.dev)

end Sys2Proof.Machine
end

