-- ==== Sys2Proof/Machine/Matrix.lean ====
section
/-! DEFINITION. The matrix class (06 R197-R223): register form, accumulator store, streaming form, online softmax. An
instruction issues into the unit of its sub-core with its sources; MATRIX_UNIT_WORK_COMPLETE performs it. -/

namespace Sys2Proof.Machine

open Sys2Proof

/-! ## Formats (R203) -/

/-- Element format of a matrix class (0 F8, 1 I8, 2 BF16, 3 F16, 4 MX, 5 IX4, 6 I4) and fa or fb. -/
def matFmt (cls f : Nat) : Option FmtCode :=
  match cls, f with
  | 0, 0 => some (.flt e4m3)
  | 0, 1 => some (.flt e5m2)
  | 1, 0 => some (.int ⟨8, true⟩)
  | 1, 1 => some (.int ⟨8, false⟩)
  | 2, 0 => some (.flt bf16)
  | 3, 0 => some (.flt fp16)
  | 4, 0 => some (.flt e4m3)
  | 4, 1 => some (.flt e5m2)
  | 4, 2 => some (.flt e2m3)
  | 4, 3 => some (.flt e3m2)
  | 4, 4 => some (.flt e2m1)
  | 4, 5 => some .scaledInt8
  | 5, _ => some (.flt e2m1)
  | 6, 0 => some (.int ⟨4, true⟩)
  | 6, 1 => some (.int ⟨4, false⟩)
  | _, _ => none

/-- Reduction length K of the register form (R203). -/
def matK (cls fa : Nat) : Nat :=
  match cls with
  | 0 | 1 => 32
  | 2 | 3 => 16
  | 4 => if fa = 4 then 64 else 32
  | _ => 64

/-- Block size of the scales along k; 0 for a class without scales (R207). -/
def matBlock (cls : Nat) : Nat := match cls with | 4 => 32 | 5 => 16 | _ => 0

/-- Integer classes: I8 and I4. -/
def matInt (cls : Nat) : Bool := cls == 1 || cls == 6

/-- fa and fb of the modifier: the tensor-scale register takes their bits in class IX4 (R204). -/
def matFa (mod : BitVec 11) : Nat := mod.toNat % 8
def matFb (mod : BitVec 11) : Nat := mod.toNat / 8 % 8
def matUt (mod : BitVec 11) : Nat := mod.toNat % 64
def matRnd (mod : BitVec 11) : Nat := mod.toNat / 64 % 4

/-- The fields fa, fb, ut and rnd hold values that R203 and R204 list for the class. -/
def matModOk (cls : Nat) (mod : BitVec 11) : Bool :=
  (cls == 5 || ((matFmt cls (matFa mod)).isSome && (matFmt cls (matFb mod)).isSome
    && (cls != 4 || ((matFa mod == 4) == (matFb mod == 4)))))
    && (!matInt cls || matRnd mod == 0) && decide (cls ≤ 6)

/-! ## The computation (R188-R190, R208) -/

/-- Values of element codes with their scales: one E8M0 or UE5M3 code for each block along k, and for IX4 the tensor
scale (R175, R177). -/
def scaledValues (cls : Nat) (fmt : FmtCode) (codes : List Nat) (scale : Nat → Nat) (tensor : Nat) : List Num :=
  match cls with
  | 4 => codes.zipIdx.map (fun x => (fmt.value x.1).mul (e8m0.decode (scale (x.2 / 32))))
  | 5 => codes.zipIdx.map (fun x => ((fmt.value x.1).mul (ue5m3.decode (scale (x.2 / 16)))).mul (fp32.decode tensor))
  | _ => codes.map fmt.value

/-- One output of a float form: E over the accumulator term, when there is one, and the products. -/
def dotFloat (mode : Rnd) (c : Option Nat) (as bs : List Num) : FpRes :=
  fp32.accumulate mode ((c.map fp32.decode).toList ++ List.zipWith Num.mul as bs)

/-- One output of an integer form, modulo 2^32. -/
def dotInt (ia ib : FmtCode) (c : Nat) (as bs : List Nat) : Nat :=
  let val := fun (f : FmtCode) x => match f with | .int i => i.decode x | _ => 0
  (((List.zipWith (fun x y => val ia x * val ib y) as bs).foldl (fun s t => s + t) (c : Int)) % 2 ^ 32).toNat

/-- A matrix multiply over rows of A and columns of B: element codes, scale codes by block. -/
structure MatTile where
  codes : List Nat
  scale : List Nat
  deriving DecidableEq, Repr

/-- The output element of a row and a column. -/
def matDot (cls : Nat) (mod : BitVec 11) (ut : DWord) (c : Option Nat) (a b : MatTile) : FpRes :=
  match matFmt cls (if cls = 5 then 0 else matFa mod), matFmt cls (if cls = 5 then 0 else matFb mod) with
  | some fa, some fb =>
    if matInt cls then ⟨dotInt fa fb (c.getD 0) a.codes b.codes, 0⟩
    else dotFloat (rndOf (matRnd mod)) c
      (scaledValues cls fa a.codes (fun p => a.scale.getD p 0) (ut.toNat % 2 ^ 32))
      (scaledValues cls fb b.codes (fun p => b.scale.getD p 0) (ut.toNat / 2 ^ 32))
  | _, _ => ⟨0, 0⟩

/-! ## Register form -/

/-- Words of `n` registers from `r`, by register · 32 + lane. -/
def Group.words (g : Group) (r n : Nat) : List Word :=
  (List.range (32 * n)).map (fun x => g.readV (r + x / 32) (x % 32))

/-- Row r of A, or column r of B, of a quad (R206): w bits an element, e elements a register. -/
def quadCodes (w : Nat) (q : List Word) (r : Nat) : List Nat :=
  let e := if w = 6 then 4 else 32 / w
  (List.range (8 * e)).map (fun k =>
    let word := q.getD (k % (4 * e) / e * 32 + 16 * (k / (4 * e)) + r) 0
    let i := k % e
    bitsOf word.toNat (w * i + w - 1) (w * i))

/-- Row r of A, or column r of B, with the scale bytes of lane r (R207). -/
def quadTile (w : Nat) (q s : List Word) (r : Nat) : MatTile :=
  { codes := quadCodes w q r, scale := (List.range 4).map (fun p => (s.getD r 0).toNat / 2 ^ (8 * p) % 256) }

/-- Element (r, n) of an octet (R205). -/
def octetGet (o : List Word) (r n : Nat) : Word := o.getD (n % 8 * 32 + 16 * (n / 8) + r) 0

/-- Writes a 16 × 16 matrix, by 16 · row + column, into an octet (R205). -/
def Group.putOctet (g : Group) (d : Nat) (m : List Word) : Group :=
  m.zipIdx.foldl (fun (h : Group) x =>
    h.writeV (d + x.2 % 16 % 8) (16 * (x.2 % 16 / 8) + x.2 / 16) x.1) g

/-- D and the flags of a register-form instruction (R208). -/
def mmaResult (cls : Nat) (mod : BitVec 11) (a b sa sb : List Word) (c : Option (List Word)) (ut : DWord) : List FpRes :=
  let wa := match matFmt cls (if cls = 5 then 0 else matFa mod) with | some f => f.width | none => 8
  let wb := match matFmt cls (if cls = 5 then 0 else matFb mod) with | some f => f.width | none => 8
  let rows := (List.range 16).map (quadTile wa a sa)
  let cols := (List.range 16).map (quadTile wb b sb)
  (List.range 256).map (fun x =>
    matDot cls mod ut (c.map (fun o => (octetGet o (x / 16) (x % 16)).toNat)) (rows.getD (x / 16) ⟨[], []⟩) (cols.getD (x % 16) ⟨[], []⟩))

/-! ## The accumulator store (R210, R211) -/

/-- The 32-bit element at a byte offset, a multiple of 4. -/
def Group.readAcc (g : Group) (off : Nat) : Word := sget 0#32 g.accStore (off / 4)
def Group.writeAcc (g : Group) (off : Nat) (x : Word) : Group := { g with accStore := sset 0#32 g.accStore (off / 4) x }

/-- Whether the bytes lie in the group's allocation. -/
def Group.accOk (g : Group) (off n : Nat) : Bool := decide (off + n ≤ g.acc * 1024)

/-- The descriptor of ACC.LD and ACC.ST: offset and pitch; none where it is out of range. -/
def subTile (g : Group) (x : DWord) : Option (Nat × Nat) :=
  let off := x.toNat % 65536
  let pitch := x.toNat / 65536 % 512
  if x.toNat < 2 ^ 25 ∧ off % 4 = 0 ∧ 16 ≤ pitch ∧ pitch ≤ 256 ∧ g.accOk off (4 * (15 * pitch + 16)) then some (off, pitch) else none

/-- The descriptor of ACC.ZERO: offset and length. -/
def zeroRange (g : Group) (x : DWord) : Option (Nat × Nat) :=
  let off := x.toNat % 65536
  let len := x.toNat / 65536 % 2 ^ 17
  if x.toNat < 2 ^ 33 ∧ off % 64 = 0 ∧ len % 64 = 0 ∧ 64 ≤ len ∧ len ≤ 65536 ∧ g.accOk off len then some (off, len) else none

/-! ## Descriptors of the streaming form and of the softmax steps (R212, R213, R218, R219) -/

/-- Rows or columns of a code: 16 · 2^c. -/
def tileDim (c : Nat) : Nat := 16 * 2 ^ (c % 4)

/-- A tile of the accumulator store: offset, rows, columns. -/
structure AccTile where
  off  : Nat
  rows : Nat
  cols : Nat
  deriving DecidableEq, Repr

def accTile (x : DWord) : AccTile := ⟨x.toNat % 65536, tileDim (x.toNat / 2 ^ 16), tileDim (x.toNat / 2 ^ 18)⟩

def AccTile.at (t : AccTile) (r n : Nat) : Nat := t.off + 4 * (r * t.cols + n)

/-- The tile starts at a multiple of 64 and lies in the allocation. -/
def AccTile.ok (t : AccTile) (g : Group) : Bool := decide (t.off % 64 = 0) && g.accOk t.off (4 * t.rows * t.cols)

/-- A local descriptor: offset and stride, none where a field is out of range. -/
def localTile (x : DWord) : Option (Nat × Nat) :=
  let off := x.toNat % 2 ^ 20
  let stride := x.toNat / 2 ^ 20 % 65536
  if x.toNat < 2 ^ 36 ∧ off % 16 = 0 ∧ stride % 16 = 0 ∧ 16 ≤ stride then some (off, stride) else none

/-- The class of an MMS. -/
def mmsCls (mod : BitVec 11) : Nat := mod.toNat / 256

/-- k of an MMS. -/
def mmsK (mod : BitVec 11) (dd : DWord) : Nat := matK (mmsCls mod) (matFa mod) * (dd.toNat / 2 ^ 20 % 16 + 1)

/-- Packed bytes of a row of A (`f` = fa) or a column of B. -/
def rowBytes (cls f k : Nat) : Nat :=
  match matFmt cls (if cls = 5 then 0 else f) with
  | some x => (x.width * k + 7) / 8
  | none => 0

/-- Whether rows with a stride lie in the block's own local memory. -/
def rowsFit (lmem off stride n bytes : Nat) : Bool := decide (bytes ≤ stride) && decide (off + (n - 1) * stride + bytes ≤ lmem * 1024)

/-- The checks of an MMS at issue (R213). -/
def mmsOk (g : Group) (lmem : Nat) (mod : BitVec 11) (dd da db dc : DWord) : Bool :=
  let cls := mmsCls mod
  let t := accTile dd
  let k := mmsK mod dd
  let s := matBlock cls
  t.ok g && decide (dd.toNat < 2 ^ 25)
    && (match localTile da, localTile db with
        | some (oa, sa), some (ob, sb) =>
          rowsFit lmem oa sa t.rows (rowBytes cls (matFa mod) k) && rowsFit lmem ob sb t.cols (rowBytes cls (matFb mod) k)
        | _, _ => false)
    && (s == 0 || (decide (dc.toNat < 2 ^ 40) && decide (dc.toNat % 2 ^ 20 + t.rows * (k / s) ≤ lmem * 1024)
        && decide (dc.toNat / 2 ^ 20 + t.cols * (k / s) ≤ lmem * 1024)))

/-- The checks of SMX.MAX at issue: the score tile, the output tile with as many rows, the statistics (R218). -/
def smxMaxOk (g : Group) (mod : BitVec 11) (dd da db : DWord) : Bool :=
  let s := accTile da
  let o := accTile dd
  let noO := dd.toNat.testBit 21
  s.ok g && decide (da.toNat < 2 ^ 20) && decide (dd.toNat / 2 ^ 22 % 1024 = 0) && decide (o.rows = s.rows)
    && decide (o.off % 64 = 0) && (mod.getLsbD 0 || noO || o.ok g)
    && decide (db.toNat % 16 = 0) && decide (db.toNat / 65536 % 65536 = 0) && g.accOk (db.toNat % 65536) (16 * s.rows)

/-- The stored format of SMX.SUM (R204). -/
def pFmt (mod : BitVec 11) : Fmt :=
  match mod.toNat % 8 with
  | 0 => bf16
  | 1 => fp16
  | 2 => e4m3
  | _ => e5m2

/-- The checks of SMX.SUM at issue (R219). -/
def smxSumOk (g : Group) (lmem : Nat) (mod : BitVec 11) (dd da db : DWord) : Bool :=
  let s := accTile da
  s.ok g && decide (da.toNat < 2 ^ 20)
    && (match localTile dd with
        | some (off, stride) => decide (off + (s.rows - 1) * stride + s.cols * (pFmt mod).width / 8 ≤ lmem * 1024)
        | none => false)
    && decide (db.toNat % 16 = 0) && decide (db.toNat / 65536 % 65536 = 0) && g.accOk (db.toNat % 65536) (16 * s.rows)

/-! ## Performing the work -/

/-- A group, the block whose local memory it uses, and the flags raised so far. -/
structure MatSt where
  grp   : Group
  blk   : Block
  flags : Word := 0
  deriving DecidableEq, Repr

/-- Row of packed elements in local memory (R176, R213). -/
def Block.packed (b : Block) (w off k : Nat) : List Nat :=
  let x := b.readLoc off ((w * k + 7) / 8)
  (List.range k).map (fun i => bitsOf x (w * i + w - 1) (w * i))

/-- A row of A or a column of B of an MMS with its scales. -/
def Block.mmsTile (b : Block) (cls f k : Nat) (desc : DWord) (soff r : Nat) : MatTile :=
  let w := match matFmt cls (if cls = 5 then 0 else f) with | some x => x.width | none => 8
  let off := desc.toNat % 2 ^ 20 + r * (desc.toNat / 2 ^ 20 % 65536)
  let s := matBlock cls
  { codes := b.packed w off k
    scale := if s = 0 then [] else (List.range (k / s)).map (fun p => (sget 0#8 b.loc (soff + r * (k / s) + p)).toNat) }

/-- MMS (R214). -/
def doMmsWork (mod : BitVec 11) (dd da db dc ut : DWord) (x : MatSt) : MatSt :=
  let cls := mmsCls mod
  let t := accTile dd
  let k := mmsK mod dd
  let rows := (List.range t.rows).map (x.blk.mmsTile cls (matFa mod) k da (dc.toNat % 2 ^ 20))
  let cols := (List.range t.cols).map (x.blk.mmsTile cls (matFb mod) k db (dc.toNat / 2 ^ 20 % 2 ^ 20))
  (List.range (t.rows * t.cols)).foldl (fun (y : MatSt) e =>
    let off := t.at (e / t.cols) (e % t.cols)
    let c := if dd.toNat.testBit 24 then none else some (x.grp.readAcc off).toNat
    let r := matDot cls mod ut c (rows.getD (e / t.cols) ⟨[], []⟩) (cols.getD (e % t.cols) ⟨[], []⟩)
    { y with grp := y.grp.writeAcc off (BitVec.ofNat 32 r.code), flags := y.flags ||| r.flags }) x

/-- FP32 operations of the softmax steps in RN, with their flags. -/
def smxMul (a b : Nat) : FpRes := fp32.accumulate .rn [(fp32.decode a).mul (fp32.decode b)]
def smxSub (a b : Nat) : FpRes := fp32.accumulate .rn [fp32.decode a, fp32.decode (b ^^^ 0x80000000)]
def smxEx2 (a : Nat) : FpRes := fp32.ex2 (fp32.decode a)
def negInf : Nat := 0xFF800000
def fpOne : Nat := 0x3F800000

/-- The scaled and masked scores of a row (R218): new codes and flags. -/
def smxRow (g : Group) (s : AccTile) (dd db : DWord) (r : Nat) : List Nat × Word :=
  (List.range s.cols).foldl (fun (acc : List Nat × Word) (n : Nat) =>
    if dd.toNat.testBit 20 && decide ((n : Int) > r + signed 32 (dd.toNat / 2 ^ 32)) then (acc.1 ++ [negInf], acc.2)
    else
      let t := smxMul (db.toNat / 2 ^ 32) (g.readAcc (s.at r n)).toNat
      (acc.1 ++ [t.code], acc.2 ||| t.flags)) ([], 0)

/-- One row of SMX.MAX (R218). -/
def smxMaxRow (mod : BitVec 11) (dd da db : DWord) (x : MatSt) (r : Nat) : MatSt :=
  let s := accTile da
  let o := accTile dd
  let init := mod.getLsbD 0
  let rec0 := db.toNat % 65536 + 16 * r
  match smxRow x.grp s dd db r with
  | (ts, f0) =>
    let g1 := ts.zipIdx.foldl (fun (h : Group) t => h.writeAcc (s.at r t.2) (BitVec.ofNat 32 t.1)) x.grp
    let mOld := if init then negInf else (x.grp.readAcc rec0).toNat
    let lOld := if init then 0#32 else x.grp.readAcc (rec0 + 4)
    let m := ts.foldl (fun (acc : FpRes) t => let y := fp32.minMax true acc.code t; (⟨y.code, acc.flags ||| y.flags⟩ : FpRes)) ⟨mOld, 0⟩
    let al := if init || m.code == negInf then (⟨fpOne, 0⟩ : FpRes)
      else let z := smxSub mOld m.code; let e := smxEx2 z.code; ⟨e.code, z.flags ||| e.flags⟩
    let g2 := if init || dd.toNat.testBit 21 then (g1, (0 : Word)) else
      (List.range o.cols).foldl (fun (h : Group × Word) n =>
        let y := smxMul al.code (h.1.readAcc (o.at r n)).toNat
        (h.1.writeAcc (o.at r n) (BitVec.ofNat 32 y.code), h.2 ||| y.flags)) (g1, 0)
    let g3 := (((g2.1.writeAcc rec0 (BitVec.ofNat 32 m.code)).writeAcc (rec0 + 4) lOld).writeAcc (rec0 + 8) (BitVec.ofNat 32 al.code)).writeAcc (rec0 + 12) 0
    { x with grp := g3, flags := x.flags ||| f0 ||| m.flags ||| al.flags ||| g2.2 }

/-- One row of SMX.SUM (R219). -/
def smxSumRow (mod : BitVec 11) (dd da db : DWord) (rho : Word) (x : MatSt) (r : Nat) : MatSt :=
  let s := accTile da
  let f := pFmt mod
  let rec0 := db.toNat % 65536 + 16 * r
  let m := (x.grp.readAcc rec0).toNat
  let ps := (List.range s.cols).map (fun n =>
    let y := if m = negInf then (⟨0, 0⟩ : FpRes)
      else
        let z := smxSub (x.grp.readAcc (s.at r n)).toNat m
        let e := smxEx2 z.code
        let q := smxMul rho.toNat e.code
        ⟨q.code, z.flags ||| e.flags ||| q.flags⟩
    let p := f.ofNum .rn false (fp32.decode y.code)
    (⟨p.code, y.flags ||| p.flags⟩ : FpRes))
  let row := dd.toNat % 2 ^ 20 + r * (dd.toNat / 2 ^ 20 % 65536)
  let blk := ps.zipIdx.foldl (fun (b : Block) p => b.writeLoc (row + p.2 * f.width / 8) (f.width / 8) p.1.code) x.blk
  let sum := fp32.accumulate .rn
    ((fp32.decode (x.grp.readAcc (rec0 + 8)).toNat).mul (fp32.decode (x.grp.readAcc (rec0 + 4)).toNat) :: ps.map (fun p => f.decode p.code))
  { grp := x.grp.writeAcc (rec0 + 4) (BitVec.ofNat 32 sum.code), blk := blk
    flags := ps.foldl (fun (m : Word) p => m ||| p.flags) (x.flags ||| sum.flags) }

/-- The effect of one work. -/
def MatWork.perform (w : MatWork) (x : MatSt) : MatSt :=
  match w with
  | .mma op mod a b sa sb c _ ut d =>
    let rs := mmaResult op mod a b sa sb (if mod.getLsbD 8 then none else some (c.getD [])) ut
    { x with grp := x.grp.putOctet d (rs.map (fun r => BitVec.ofNat 32 r.code)), flags := rs.foldl (fun (m : Word) r => m ||| r.flags) x.flags }
  | .mms mod dd da db dc ut => doMmsWork mod dd da db dc ut x
  | .accLd desc d =>
    let off := desc.toNat % 65536
    let pitch := desc.toNat / 65536 % 512
    { x with grp := x.grp.putOctet d ((List.range 256).map (fun e => x.grp.readAcc (off + 4 * (e / 16 * pitch + e % 16)))) }
  | .accSt desc b =>
    let off := desc.toNat % 65536
    let pitch := desc.toNat / 65536 % 512
    { x with grp := (List.range 256).foldl (fun (h : Group) e => h.writeAcc (off + 4 * (e / 16 * pitch + e % 16)) (octetGet b (e / 16) (e % 16))) x.grp }
  | .accZero desc =>
    let lo := desc.toNat % 65536 / 4
    let n := desc.toNat / 65536 % 2 ^ 17 / 4
    { x with grp := { x.grp with accStore := x.grp.accStore.filter (fun c => decide (c.1 < lo) || decide (lo + n ≤ c.1)) } }
  | .smxMax mod dd da db => (List.range (accTile da).rows).foldl (smxMaxRow mod dd da db) x
  | .smxSum mod dd da db rho => (List.range (accTile da).rows).foldl (smxSumRow mod dd da db rho) x

/-- Products a slot (R222). -/
def matRate (cls fa : Nat) : Nat :=
  match cls with
  | 0 | 1 => 1024
  | 2 | 3 => 512
  | 4 => if fa = 4 then 2048 else 1024
  | _ => 2048

/-- Slots that a work holds the unit (R215, R221, R222). -/
def MatWork.hold : MatWork → Nat
  | .mma .. => 8
  | .mms mod dd da db _ _ =>
    let t := accTile dd
    let even := fun (x : DWord) => x.toNat / 2 ^ 20 % 65536 / 16 % 2 == 0
    let n := t.rows * t.cols * mmsK mod dd / matRate (mmsCls mod) (matFa mod)
    if even da || even db then 2 * n else n
  | .accLd .. | .accSt .. => 2
  | .accZero desc => (desc.toNat / 65536 % 2 ^ 17 + 1023) / 1024
  | .smxMax _ dd da _ =>
    let s := accTile da
    if dd.toNat.testBit 21 then s.rows * s.cols / 256 else (s.rows * s.cols + s.rows * (accTile dd).cols) / 256
  | .smxSum _ _ da _ _ => (accTile da).rows * (accTile da).cols / 128

/-! ## Issue -/

/-- Whether lanes outside the running path belong to another path: the mask is partial (R201). -/
def Group.partialMask (g : Group) : Bool := !g.others.isEmpty

/-- The issue of matrix work: guard 0, the trap of R202, the checks of the descriptors (R210), then the sources go to
the unit. `srcs` are the registers it reads but the accumulator `c`, `dsts` the octet it writes. -/
def Dev.issueMatrix (d : Dev) (g : GroupRef) (ok : Bool) (srcs dsts : List Use) (c : Option Nat) (slots : Nat)
    (work : Ctx → Bool → Option MatWork) : Dev :=
  let last := fun (key : Nat) => ((d.munit (key / 16)).filter (fun m => m.gkey == key)).getLast?
  let forwarded := fun (key : Nat) => match c, last key with
    | some r, some m => (match m.work with | .mma _ _ _ _ _ _ _ _ _ x => x == r | _ => false)
    | _, _ => false
  let cUse : List Use := match c with | some r => [⟨false, r, 8⟩] | none => []
  d.issueGen g (fun x => if ok && (srcs ++ dsts ++ cUse).all (fun u => u.ok x.grp.nv) then
      some (srcs ++ (if forwarded x.key then [] else cUse)) else none) true (fun x =>
    let part := x.grp.partialMask
    let all : Ctx := { x with path := { x.path with mask := 0xFFFFFFFF } }
    if part && d.trapDiverged x.part then { dev := d.jobFault x.part causeTrap x.die }
    else if meets (d.pendingMem all) (srcs ++ dsts ++ cUse) then { dev := d, went := false }
    else match work x (forwarded x.key) with
      | none => d.addressFault x
      | some w =>
        let g1 := if part then x.grp.raise flagMatrixDiverged else x.grp
        let d1 := d.setGroup x.key g1
        { dev := d1.setMunit (x.key / 16) (d1.munit (x.key / 16) ++ [{ gkey := x.key, work := w }])
          slots := slots, next := some (x.path.pc + 8) })

/-- Guard 0, ib, uf and lf 0, and the kind bits (R197). -/
def matWordOk (w : FmtA) (ka kb kc : Bool) : Bool :=
  w.guard == 0 && !w.ib && !w.uf && !w.lf && w.ka == ka && w.kb == kb && w.kc == kc

/-- A register-form instruction of a class (R203). -/
def doMma (cls : Nat) (g : GroupRef) (w : FmtA) (d : Dev) : Dev :=
  let zc := w.mod.getLsbD 8
  let a := w.a.toNat
  let b := w.b.toNat
  let scaled := matBlock cls != 0
  let ok := matWordOk w false false false && matModOk cls w.mod && decide (w.mod.toNat < 512) && (!zc || w.c == 0)
  let srcs : List Use := [⟨false, a, 4⟩, ⟨false, b, 4⟩] ++ (if scaled then [⟨false, a + 4, 1⟩, ⟨false, b + 4, 1⟩] else [])
    ++ (if cls = 5 then [⟨true, matUt w.mod, 1⟩] else [])
  d.issueMatrix g ok srcs [⟨false, w.d.toNat, 8⟩] (if zc then none else some w.c.toNat) 8 (fun x fwd =>
    some (.mma cls w.mod (x.grp.words a 4) (x.grp.words b 4) (if scaled then x.grp.words (a + 4) 1 else [])
      (if scaled then x.grp.words (b + 4) 1 else []) (if zc then some [] else if fwd then none else some (x.grp.words w.c.toNat 8)) w.c.toNat
      (if cls = 5 then x.grp.readU (matUt w.mod) else 0) w.d.toNat))

/-- MMA.F8.F32 (R203, R208). -/
def doMmaF8F32 (g : GroupRef) (w : FmtA) (d : Dev) : Dev := doMma 0 g w d
def execMmaF8F32 (g : GroupRef) (w : FmtA) (s : State) : Host.Outcome State Fault Refusal := done s (doMmaF8F32 g w s.dev)

/-- MMA.I8.S32. -/
def doMmaI8S32 (g : GroupRef) (w : FmtA) (d : Dev) : Dev := doMma 1 g w d
def execMmaI8S32 (g : GroupRef) (w : FmtA) (s : State) : Host.Outcome State Fault Refusal := done s (doMmaI8S32 g w s.dev)

/-- MMA.BF16.F32. -/
def doMmaBf16F32 (g : GroupRef) (w : FmtA) (d : Dev) : Dev := doMma 2 g w d
def execMmaBf16F32 (g : GroupRef) (w : FmtA) (s : State) : Host.Outcome State Fault Refusal := done s (doMmaBf16F32 g w s.dev)

/-- MMA.F16.F32. -/
def doMmaF16F32 (g : GroupRef) (w : FmtA) (d : Dev) : Dev := doMma 3 g w d
def execMmaF16F32 (g : GroupRef) (w : FmtA) (s : State) : Host.Outcome State Fault Refusal := done s (doMmaF16F32 g w s.dev)

/-- MMA.MX.F32. -/
def doMmaMxF32 (g : GroupRef) (w : FmtA) (d : Dev) : Dev := doMma 4 g w d
def execMmaMxF32 (g : GroupRef) (w : FmtA) (s : State) : Host.Outcome State Fault Refusal := done s (doMmaMxF32 g w s.dev)

/-- MMA.IX4.F32. -/
def doMmaIx4F32 (g : GroupRef) (w : FmtA) (d : Dev) : Dev := doMma 5 g w d
def execMmaIx4F32 (g : GroupRef) (w : FmtA) (s : State) : Host.Outcome State Fault Refusal := done s (doMmaIx4F32 g w s.dev)

/-- MMA.I4.S32. -/
def doMmaI4S32 (g : GroupRef) (w : FmtA) (d : Dev) : Dev := doMma 6 g w d
def execMmaI4S32 (g : GroupRef) (w : FmtA) (s : State) : Host.Outcome State Fault Refusal := done s (doMmaI4S32 g w s.dev)

/-- KiB of local memory of the group's block. -/
def Dev.lmemOf (d : Dev) (x : Ctx) : Nat := match d.blockOf x.key x.grp with | some b => b.lmem | none => 0

def uni1 (r : BitVec 8) : Use := ⟨true, r.toNat, 1⟩

/-- MMS (R212, R213). -/
def doMms (g : GroupRef) (w : FmtA) (d : Dev) : Dev :=
  let cls := mmsCls w.mod
  let scaled := matBlock cls != 0
  let ok := matWordOk w true true scaled && matModOk cls w.mod && (scaled || w.c == 0)
  d.issueMatrix g ok ([uni1 w.d, uni1 w.a, uni1 w.b] ++ (if scaled then [uni1 w.c] else []) ++ (if cls = 5 then [⟨true, matUt w.mod, 1⟩] else []))
    [] none 1 (fun x _ =>
      let u := fun (r : BitVec 8) => x.grp.readU r.toNat
      let dc := if scaled then u w.c else 0
      if mmsOk x.grp (d.lmemOf x) w.mod (u w.d) (u w.a) (u w.b) dc then
        some (.mms w.mod (u w.d) (u w.a) (u w.b) dc (if cls = 5 then x.grp.readU (matUt w.mod) else 0))
      else none)
def execMms (g : GroupRef) (w : FmtA) (s : State) : Host.Outcome State Fault Refusal := done s (doMms g w s.dev)

/-- ACC.LD (R211). -/
def doAccLd (g : GroupRef) (w : FmtA) (d : Dev) : Dev :=
  d.issueMatrix g (matWordOk w true false false && w.mod == 0 && w.b == 0 && w.c == 0) [uni1 w.a] [⟨false, w.d.toNat, 8⟩] none 2 (fun x _ =>
    let desc := x.grp.readU w.a.toNat
    (subTile x.grp desc).map (fun _ => .accLd desc w.d.toNat))
def execAccLd (g : GroupRef) (w : FmtA) (s : State) : Host.Outcome State Fault Refusal := done s (doAccLd g w s.dev)

/-- ACC.ST (R211). -/
def doAccSt (g : GroupRef) (w : FmtA) (d : Dev) : Dev :=
  d.issueMatrix g (matWordOk w true false false && w.mod == 0 && w.d == 0 && w.c == 0) [uni1 w.a, ⟨false, w.b.toNat, 8⟩] [] none 2 (fun x _ =>
    let desc := x.grp.readU w.a.toNat
    (subTile x.grp desc).map (fun _ => .accSt desc (x.grp.words w.b.toNat 8)))
def execAccSt (g : GroupRef) (w : FmtA) (s : State) : Host.Outcome State Fault Refusal := done s (doAccSt g w s.dev)

/-- ACC.ZERO (R211). -/
def doAccZero (g : GroupRef) (w : FmtA) (d : Dev) : Dev :=
  d.issueMatrix g (matWordOk w true false false && w.mod == 0 && w.d == 0 && w.b == 0 && w.c == 0) [uni1 w.a] [] none 1 (fun x _ =>
    let desc := x.grp.readU w.a.toNat
    (zeroRange x.grp desc).map (fun _ => .accZero desc))
def execAccZero (g : GroupRef) (w : FmtA) (s : State) : Host.Outcome State Fault Refusal := done s (doAccZero g w s.dev)

/-- SMX.MAX (R218). -/
def doSmxMax (g : GroupRef) (w : FmtA) (d : Dev) : Dev :=
  d.issueMatrix g (matWordOk w true true false && decide (w.mod.toNat < 2) && w.c == 0) [uni1 w.d, uni1 w.a, uni1 w.b] [] none 1 (fun x _ =>
    let u := fun (r : BitVec 8) => x.grp.readU r.toNat
    if smxMaxOk x.grp w.mod (u w.d) (u w.a) (u w.b) then some (.smxMax w.mod (u w.d) (u w.a) (u w.b)) else none)
def execSmxMax (g : GroupRef) (w : FmtA) (s : State) : Host.Outcome State Fault Refusal := done s (doSmxMax g w s.dev)

/-- SMX.SUM (R219). -/
def doSmxSum (g : GroupRef) (w : FmtA) (d : Dev) : Dev :=
  let rho := w.mod.getLsbD 3
  d.issueMatrix g (matWordOk w true true rho && decide (w.mod.toNat < 16) && decide (w.mod.toNat % 8 < 4) && (rho || w.c == 0))
    ([uni1 w.d, uni1 w.a, uni1 w.b] ++ (if rho then [uni1 w.c] else [])) [] none 1 (fun x _ =>
      let u := fun (r : BitVec 8) => x.grp.readU r.toNat
      if smxSumOk x.grp (d.lmemOf x) w.mod (u w.d) (u w.a) (u w.b) then
        some (.smxSum w.mod (u w.d) (u w.a) (u w.b) (if rho then (u w.c).setWidth 32 else BitVec.ofNat 32 fpOne))
      else none)
def execSmxSum (g : GroupRef) (w : FmtA) (s : State) : Host.Outcome State Fault Refusal := done s (doSmxSum g w s.dev)

/-! ## Completion -/

/-- The next work of the group takes its accumulator from the result just written (R209). -/
def MatEntry.forward (m : MatEntry) (g : Group) : MatEntry :=
  match m.work with
  | .mma op mod a b sa sb none cr ut d => { m with work := .mma op mod a b sa sb (some (g.words cr 8)) cr ut d }
  | _ => m

/-- The entries with the group's first one forwarded. -/
def forwardFirst (key : Nat) (g : Group) (l : List MatEntry) : List MatEntry :=
  updFirst (fun (m : MatEntry) => m.gkey == key) (fun m => m.forward g) l

/-- MATRIX_UNIT_WORK_COMPLETE: the oldest work of the unit is performed. The slot of an ended group becomes free, and
barriers that waited for its local accesses complete (R91, R216, R223). [DESIGN CHOICE, log 17] -/
def doMatrixUnitWorkComplete (die core sub : Nat) (d : Dev) : Dev :=
  let uk := subKey die core sub
  match d.munit uk with
  | [] => d
  | m :: rest =>
    match d.group m.gkey, d.partOfStack die with
    | some g, some p =>
      match d.blockOf m.gkey g with
      | none => d
      | some b =>
        if d.partRuns p && d.coresIssue then
          let r := m.work.perform { grp := g, blk := b }
          let g1 := r.grp.raise (r.flags &&& ~~~m.noRaise)
          let ck := coreKey die core
          let d1 := (d.setMunit uk (forwardFirst m.gkey g1 rest)).setGroup m.gkey g1
          let d2 := d1.setCore ck ((d1.core ck).setBlock r.blk)
          let d3 := d2.meter (domCompute die) (d2.acctOf g.q g.i) (4 * m.work.hold)
          ((d3.stepDone p m.gkey).reapGroup m.gkey).barriers ck g.block
        else d
    | _, _ => d

def execMatrixUnitWorkComplete (die core sub : Nat) (s : State) : Host.Outcome State Fault Refusal :=
  done s (doMatrixUnitWorkComplete die core sub s.dev)

end Sys2Proof.Machine
end

