-- ==== Sys2Proof/Machine/Moves.lean ====
section
/-! DEFINITION. MOV, MOV.SR and MOV.TOSR (04 R100, R130-R132, R142, R146). -/

namespace Sys2Proof.Machine

open Sys2Proof

/-- MOV: type 0 U32, 2 U64 (R142). -/
def doMov (g : GroupRef) (w : FmtA) (d : Dev) : Dev :=
  let n := if w.mod == 2 then 2 else 1
  d.issueAlu g w { d := .reg n, b := .reg n, modOk := w.mod == 0 || w.mod == 2, long := true, uni := true } 1
    (fun _ b _ => { val := b })

def execMov (g : GroupRef) (w : FmtA) (s : State) : Host.Outcome State Fault Refusal := done s (doMov g w s.dev)

/-! ## Special registers (R130) -/

/-- Registers that a special register takes: 2 for the 64-bit ones; none for an index that R130 does not list. -/
def srRegs (i : Nat) : Option Nat :=
  if i = 0x0C ∨ i = 0x0D ∨ i = 0x14 ∨ i = 0x21 then some 2
  else if i ≤ 0x14 ∨ i = 0x20 ∨ i = 0x22 ∨ i = 0x23 then some 1
  else none

/-- Whether a result computed from it falls under R16. -/
def srCovered (i : Nat) : Bool := !(decide (0x11 ≤ i) && decide (i ≤ 0x14))

/-- The value of a special register in a lane (R100, R130). -/
def srValue (d : Dev) (c : Ctx) (lane i : Nat) : Nat :=
  let g := c.grp
  let r := c.run
  let tid := 32 * g.num + lane
  let b := (d.blockOf c.key g).getD { slot := 0, q := 0, i := 0, index := 0, cluster := 0, rank := 0, lmem := 0, groups := 0 }
  match i with
  | 0x00 => lane
  | 0x01 => g.num
  | 0x02 => tid
  | 0x03 => tid % r.dx
  | 0x04 => tid / r.dx % r.dy
  | 0x05 => tid / r.dx / r.dy
  | 0x06 => r.dx
  | 0x07 => r.dy
  | 0x08 => r.dz
  | 0x09 => b.index % r.gx
  | 0x0A => b.index / r.gx % r.gy
  | 0x0B => b.index / r.gx / r.gy
  | 0x0C => r.gx
  | 0x0D => r.gy
  | 0x0E => r.gz
  | 0x0F => b.rank
  | 0x10 => r.cx * r.cy * r.cz
  | 0x11 => c.die * 256 + c.core
  | 0x12 => c.sub
  | 0x13 => slotOfKey c.key
  | 0x14 => d.time
  | 0x20 => g.flags.toNat
  | 0x21 => g.seed.toNat
  | 0x22 => b.lmem
  | _ => g.nv

/-- MOV.SR (R130): a result narrower than 64 bits leaves zeros above in a uniform register (R137). A read of sr_flags
waits for the group's matrix work (R129). -/
def doMovSr (g : GroupRef) (w : FmtI) (d : Dev) : Dev :=
  let i := w.imm16.toNat
  d.issue g (fun c => match srRegs i with
      | some n => iUses c.grp.nv w (some n) none
      | none => none) (srCovered i) (fun _ => 1) 8 true
    (fun c =>
      if i = 0x20 && d.matrixBusy c.key then none
      else
        let n := (srRegs i).getD 1
        let one := fun (h : Group) lane =>
          if w.uf then h.writeU w.d.toNat (BitVec.ofNat 64 (srValue d c lane i % 2 ^ (32 * n)))
          else h.writeVs w.d.toNat lane n (srValue d c lane i)
        some (d.setGroup c.key ((c.takers w.guard w.uf).foldl one c.grp)))

def execMovSr (g : GroupRef) (w : FmtI) (s : State) : Host.Outcome State Fault Refusal := done s (doMovSr g w s.dev)

/-- The ones that the taking-part lanes give for sr_flags (R130). -/
def flagOnes (g : Group) (w : FmtI) (lanes : List Nat) : Word :=
  lanes.foldl (fun (m : Word) lane => m ||| BitVec.ofNat 32 (srcReg g lane (w.uf || w.ka) w.a.toNat 1)) 0

/-- MOV.TOSR (R130): sr_seed takes the value of the highest lane; sr_flags loses the ones of any lane, also those that
matrix work issued before would still raise (R132). -/
def doMovTosr (g : GroupRef) (w : FmtI) (d : Dev) : Dev :=
  let i := w.imm16.toNat
  d.issue g (fun c => if i = 0x21 then iUses c.grp.nv w none (some 2) else if i = 0x20 then iUses c.grp.nv w none (some 1) else none)
    true (fun _ => 1) 8 true
    (fun c =>
      let lanes := c.takers w.guard w.uf
      match lanes.getLast? with
      | none => some d
      | some top =>
        if i = 0x21 then
          some (d.setGroup c.key { c.grp with seed := BitVec.ofNat 64 (srcReg c.grp top (w.uf || w.ka) w.a.toNat 2) })
        else
          let ones := flagOnes c.grp w lanes
          let d1 := d.setMunit (c.key / 16) ((d.munit (c.key / 16)).map (fun (m : MatEntry) =>
            if m.gkey = c.key then { m with noRaise := m.noRaise ||| (ones &&& flagsMask) } else m))
          some (d1.setGroup c.key { c.grp with flags := flagsClear c.grp.flags ones }))

def execMovTosr (g : GroupRef) (w : FmtI) (s : State) : Host.Outcome State Fault Refusal := done s (doMovTosr g w s.dev)

end Sys2Proof.Machine
end

