-- ==== Sys2Proof/Machine/Shuffle.lean ====
section
/-! DEFINITION. SHFL, VOTE and REDUX (04 R142, R165-R167). -/

namespace Sys2Proof.Machine

open Sys2Proof

/-! ## SHFL (R165): mode in mod [1:0], w64 in [2] -/

/-- The source lane by mode: IDX, UP, DOWN, XOR; none outside 0-31. -/
def shflLane (mode n k : Nat) : Option Nat :=
  match mode with
  | 0 => some k
  | 1 => if k ≤ n then some (n - k) else none
  | 2 => if n + k < 32 then some (n + k) else none
  | _ => some (n ^^^ k)

/-- Every source is read before d is written. -/
def shflEffect (w : FmtA) (c : Ctx) : Group :=
  let n := if w.mod.getLsbD 2 then 2 else 1
  let g := c.grp
  let part := c.lanes w.guard
  (lanesOf part).foldl (fun (h : Group) l =>
    let k := srcB g w l 1 % 32
    let src := match shflLane (w.mod.toNat % 4) l k with
      | some x => if part.getLsbD x then x else l
      | none => l
    h.writeVs w.d.toNat l n (srcA g w src n)) g

def doShfl (g : GroupRef) (w : FmtA) (d : Dev) : Dev :=
  let n := if w.mod.getLsbD 2 then 2 else 1
  d.issueGroup g (fun c => aUses c.grp.nv w { d := .reg n, a := .reg n, b := .reg 1, modOk := decide (w.mod.toNat < 8), long := true })
    true n (insLen w.lf) (shflEffect w)

def execShfl (g : GroupRef) (w : FmtA) (s : State) : Host.Outcome State Fault Refusal := done s (doShfl g w s.dev)

/-! ## VOTE (R166): mode in mod [1:0] -/

def voteEffect (w : FmtA) (c : Ctx) : Group :=
  let g := c.grp
  let part := c.lanes w.guard
  let p := g.readP (w.a.toNat % 8) &&& part
  let yes := match w.mod.toNat % 4 with
    | 0 => p == part
    | 1 => p != 0
    | _ => p == part || p == 0
  if w.mod.toNat % 4 = 3 then (lanesOf part).foldl (fun (h : Group) l => h.writeV w.d.toNat l p) g
  else g.writeP (w.d.toNat % 8) part (if yes then BitVec.allOnes 32 else 0)

def doVote (g : GroupRef) (w : FmtA) (d : Dev) : Dev :=
  d.issueGroup g (fun c => aUses c.grp.nv w { d := if w.mod == 3 then .reg 1 else .pred, a := .pred, modOk := decide (w.mod.toNat < 4) })
    true 1 8 (voteEffect w)

def execVote (g : GroupRef) (w : FmtA) (s : State) : Host.Outcome State Fault Refusal := done s (doVote g w s.dev)

/-! ## REDUX (R167): op in mod [2:0], type in [4:3] -/

/-- The identity of lanes that do not take part. -/
def reduxIdentity (op ty : Nat) : Nat :=
  match op, ty with
  | 0, 2 => 0x80000000
  | 1, 0 => 0xFFFFFFFF
  | 1, 1 => 0x7FFFFFFF
  | 1, _ => fp32.infCode false
  | 2, 0 => 0
  | 2, 1 => 0x80000000
  | 2, _ => fp32.infCode true
  | 3, _ => 0xFFFFFFFF
  | _, _ => 0

/-- One combination of two values. -/
def reduxOne (op ty a b : Nat) : Res :=
  let v := fun (x : Nat) => if ty = 1 then signed 32 x else (x : Int)
  match op, ty with
  | 0, 2 => let r := fp32.accumulate .rn [fp32.decode a, fp32.decode b]; ⟨r.code, r.flags⟩
  | 0, _ => ⟨(a + b) % 2 ^ 32, 0⟩
  | 1, 2 => let r := fp32.minMax false a b; ⟨r.code, r.flags⟩
  | 1, _ => ⟨if v b < v a then b else a, 0⟩
  | 2, 2 => let r := fp32.minMax true a b; ⟨r.code, r.flags⟩
  | 2, _ => ⟨if v a < v b then b else a, 0⟩
  | 3, _ => ⟨a &&& b, 0⟩
  | 4, _ => ⟨a ||| b, 0⟩
  | _, _ => ⟨a ^^^ b, 0⟩

/-- One level of the tree: neighbours combined in pairs. -/
def reduxLevel (op ty : Nat) : List Res → List Res
  | x :: y :: rest =>
    let r := reduxOne op ty x.val y.val
    ⟨r.val, r.flags ||| x.flags ||| y.flags⟩ :: reduxLevel op ty rest
  | l => l

/-- The five levels over 32 lanes. -/
def reduxTree (op ty : Nat) (l : List Res) : Res :=
  (reduxLevel op ty (reduxLevel op ty (reduxLevel op ty (reduxLevel op ty (reduxLevel op ty l))))).headD ⟨0, 0⟩

def reduxEffect (w : FmtA) (c : Ctx) : Group :=
  let op := w.mod.toNat % 8
  let ty := w.mod.toNat / 8 % 4
  let g := c.grp
  let part := c.lanes w.guard
  if part = 0 then g
  else
    let r := reduxTree op ty ((List.range 32).map (fun l =>
      ⟨if part.getLsbD l then srcA g w l 1 else reduxIdentity op ty, 0⟩))
    ((lanesOf part).foldl (fun (h : Group) l => h.writeV w.d.toNat l (BitVec.ofNat 32 r.val)) g).raise r.flags

def doRedux (g : GroupRef) (w : FmtA) (d : Dev) : Dev :=
  let op := w.mod.toNat % 8
  let ty := w.mod.toNat / 8 % 4
  d.issueGroup g (fun c => aUses c.grp.nv w { d := .reg 1, a := .reg 1, modOk := w.mod.toNat < 32 && op < 6 && ty < 3 && (op < 3 || ty != 2) })
    true (if ty = 2 then 4 else 2) 8 (reduxEffect w)

def execRedux (g : GroupRef) (w : FmtA) (s : State) : Host.Outcome State Fault Refusal := done s (doRedux g w s.dev)

end Sys2Proof.Machine
end

