-- ==== Sys2Proof/Machine/Code.lean ====
section
/-! DEFINITION. Instruction words: their fields by format (04 R133-R141, R146), their decoding, and the issue of the
instruction that stands at a group's pc, as DEBUG_STEP does it (03 R119). -/

namespace Sys2Proof.Machine

open Sys2Proof

/-- A field of a word. -/
def fieldOf (w : DWord) (lo n : Nat) : BitVec n := BitVec.ofNat n (w.toNat >>> lo)

/-- Format A (R136). -/
def fmtAOf (w imm : DWord) : FmtA :=
  { guard := fieldOf w 10 5, lf := w.getLsbD 15, d := fieldOf w 16 8, a := fieldOf w 24 8, b := fieldOf w 32 8, c := fieldOf w 40 8,
    mod := fieldOf w 48 11, ib := w.getLsbD 59, uf := w.getLsbD 60, ka := w.getLsbD 61, kb := w.getLsbD 62, kc := w.getLsbD 63,
    imm := if w.getLsbD 15 then imm else 0 }

/-- Format I (R139). -/
def fmtIOf (w : DWord) : FmtI :=
  { guard := fieldOf w 10 5, lf := w.getLsbD 15, d := fieldOf w 16 8, a := fieldOf w 24 8, imm16 := fieldOf w 32 16, mod := fieldOf w 48 11,
    z59 := w.getLsbD 59, uf := w.getLsbD 60, ka := w.getLsbD 61, z63 := fieldOf w 62 2 }

/-- Format M (R140). -/
def fmtMOf (w imm : DWord) : FmtM :=
  { guard := fieldOf w 10 5, lf := w.getLsbD 15, d := fieldOf w 16 8, a := fieldOf w 24 8, off16 := fieldOf w 32 16, width := fieldOf w 48 3,
    sem := fieldOf w 51 2, scope := fieldOf w 53 3, hint := fieldOf w 56 2, z58 := fieldOf w 58 2, uf := w.getLsbD 60, ka := w.getLsbD 61,
    kd := w.getLsbD 62, z63 := w.getLsbD 63, imm := if w.getLsbD 15 then imm else 0 }

/-- Format B (R141). -/
def fmtBOf (w imm : DWord) : FmtB :=
  { guard := fieldOf w 10 5, lf := w.getLsbD 15, toff := fieldOf w 16 20, coff := fieldOf w 36 20, link := fieldOf w 56 8,
    imm := if w.getLsbD 15 then imm else 0 }

/-- The instruction of a word and the word after it; none for an opcode that R146 does not assign. [DEDUCED, log 7] -/
def decodeIns (g : GroupRef) (w imm : DWord) : Option Instr :=
  match w.toNat % 1024 with
  | 0x001 => some (.iadd g (fmtAOf w imm))
  | 0x002 => some (.isub g (fmtAOf w imm))
  | 0x003 => some (.imulLo g (fmtAOf w imm))
  | 0x004 => some (.imulHi g (fmtAOf w imm))
  | 0x005 => some (.imadLo g (fmtAOf w imm))
  | 0x006 => some (.imin g (fmtAOf w imm))
  | 0x007 => some (.imax g (fmtAOf w imm))
  | 0x008 => some (.iabs g (fmtAOf w imm))
  | 0x009 => some (.idp4 g (fmtAOf w imm))
  | 0x041 => some (.blut g (fmtAOf w imm))
  | 0x042 => some (.shl g (fmtAOf w imm))
  | 0x043 => some (.shr g (fmtAOf w imm))
  | 0x044 => some (.sar g (fmtAOf w imm))
  | 0x045 => some (.shf g (fmtAOf w imm))
  | 0x046 => some (.popc g (fmtAOf w imm))
  | 0x047 => some (.clz g (fmtAOf w imm))
  | 0x048 => some (.brev g (fmtAOf w imm))
  | 0x049 => some (.bfe g (fmtAOf w imm))
  | 0x04A => some (.bfi g (fmtAOf w imm))
  | 0x081 => some (.isetp g (fmtAOf w imm))
  | 0x082 => some (.fsetp g (fmtAOf w imm))
  | 0x083 => some (.sel g (fmtAOf w imm))
  | 0x084 => some (.plut g (fmtAOf w imm))
  | 0x085 => some (.pmovP2v g (fmtAOf w imm))
  | 0x086 => some (.pmovV2p g (fmtAOf w imm))
  | 0x0C1 => some (.fadd g (fmtAOf w imm))
  | 0x0C2 => some (.fmul g (fmtAOf w imm))
  | 0x0C3 => some (.ffma g (fmtAOf w imm))
  | 0x0C4 => some (.fmin g (fmtAOf w imm))
  | 0x0C5 => some (.fmax g (fmtAOf w imm))
  | 0x0C6 => some (.frcp g (fmtAOf w imm))
  | 0x0C7 => some (.fdiv g (fmtAOf w imm))
  | 0x0C8 => some (.fsqrt g (fmtAOf w imm))
  | 0x0C9 => some (.frsq g (fmtAOf w imm))
  | 0x0CA => some (.fex2 g (fmtAOf w imm))
  | 0x0CB => some (.flg2 g (fmtAOf w imm))
  | 0x0CC => some (.fsin g (fmtAOf w imm))
  | 0x0CD => some (.fcos g (fmtAOf w imm))
  | 0x0CE => some (.ftanh g (fmtAOf w imm))
  | 0x101 => some (.cvt g (fmtAOf w imm))
  | 0x102 => some (.cvtPack g (fmtAOf w imm))
  | 0x103 => some (.cvtUnpack g (fmtAOf w imm))
  | 0x105 => some (.cvtRs g (fmtAOf w imm))
  | 0x141 => some (.mov g (fmtAOf w imm))
  | 0x142 => some (.movSr g (fmtIOf w))
  | 0x143 => some (.movTosr g (fmtIOf w))
  | 0x181 => some (.ldLocal g (fmtMOf w imm))
  | 0x182 => some (.stLocal g (fmtMOf w imm))
  | 0x183 => some (.ldGlobal g (fmtMOf w imm))
  | 0x184 => some (.stGlobal g (fmtMOf w imm))
  | 0x185 => some (.ldConst g (fmtMOf w imm))
  | 0x186 => some (.bcopyG2l g (fmtAOf w imm))
  | 0x187 => some (.bcopyL2g g (fmtAOf w imm))
  | 0x188 => some (.bwait g (fmtAOf w imm))
  | 0x189 => some (.prefetchGlobal g (fmtMOf w imm))
  | 0x1C1 => some (.atomAdd g (fmtAOf w imm))
  | 0x1C2 => some (.atomMin g (fmtAOf w imm))
  | 0x1C3 => some (.atomMax g (fmtAOf w imm))
  | 0x1C4 => some (.atomAnd g (fmtAOf w imm))
  | 0x1C5 => some (.atomOr g (fmtAOf w imm))
  | 0x1C6 => some (.atomXor g (fmtAOf w imm))
  | 0x1C7 => some (.atomExch g (fmtAOf w imm))
  | 0x1C8 => some (.atomCas g (fmtAOf w imm))
  | 0x201 => some (.redAdd g (fmtAOf w imm))
  | 0x202 => some (.redMin g (fmtAOf w imm))
  | 0x203 => some (.redMax g (fmtAOf w imm))
  | 0x204 => some (.rclose g (fmtAOf w imm))
  | 0x241 => some (.fence g (fmtAOf w imm))
  | 0x280 => some (.nop g (fmtAOf w imm))
  | 0x281 => some (.bra g (fmtBOf w imm))
  | 0x282 => some (.braI g (fmtBOf w imm))
  | 0x283 => some (.call g (fmtBOf w imm))
  | 0x284 => some (.callI g (fmtBOf w imm))
  | 0x285 => some (.ret g (fmtBOf w imm))
  | 0x286 => some (.sync g (fmtAOf w imm))
  | 0x287 => some (.syncBlock g (fmtAOf w imm))
  | 0x288 => some (.syncCluster g (fmtAOf w imm))
  | 0x289 => some (.yield g (fmtAOf w imm))
  | 0x28A => some (.exit g (fmtAOf w imm))
  | 0x2C1 => some (.shfl g (fmtAOf w imm))
  | 0x2C2 => some (.vote g (fmtAOf w imm))
  | 0x2C3 => some (.redux g (fmtAOf w imm))
  | 0x301 => some (.mmaF8F32 g (fmtAOf w imm))
  | 0x302 => some (.mmaI8S32 g (fmtAOf w imm))
  | 0x303 => some (.mmaBf16F32 g (fmtAOf w imm))
  | 0x304 => some (.mmaF16F32 g (fmtAOf w imm))
  | 0x305 => some (.mmaMxF32 g (fmtAOf w imm))
  | 0x306 => some (.mmaIx4F32 g (fmtAOf w imm))
  | 0x307 => some (.mmaI4S32 g (fmtAOf w imm))
  | 0x310 => some (.mms g (fmtAOf w imm))
  | 0x311 => some (.accLd g (fmtAOf w imm))
  | 0x312 => some (.accSt g (fmtAOf w imm))
  | 0x313 => some (.accZero g (fmtAOf w imm))
  | 0x314 => some (.smxMax g (fmtAOf w imm))
  | 0x315 => some (.smxSum g (fmtAOf w imm))
  | 0x341 => some (.bkpt g (fmtIOf w))
  | _ => none

/-- The issue of an instruction of a group; other commands are no instructions. -/
def Dev.issueIns (d : Dev) (x : Instr) : Dev :=
  match x with
  | .iadd g w => doIadd g w d
  | .isub g w => doIsub g w d
  | .imulLo g w => doImulLo g w d
  | .imulHi g w => doImulHi g w d
  | .imadLo g w => doImadLo g w d
  | .imin g w => doImin g w d
  | .imax g w => doImax g w d
  | .iabs g w => doIabs g w d
  | .idp4 g w => doIdp4 g w d
  | .blut g w => doBlut g w d
  | .shl g w => doShl g w d
  | .shr g w => doShr g w d
  | .sar g w => doSar g w d
  | .shf g w => doShf g w d
  | .popc g w => doPopc g w d
  | .clz g w => doClz g w d
  | .brev g w => doBrev g w d
  | .bfe g w => doBfe g w d
  | .bfi g w => doBfi g w d
  | .isetp g w => doIsetp g w d
  | .fsetp g w => doFsetp g w d
  | .sel g w => doSel g w d
  | .plut g w => doPlut g w d
  | .pmovP2v g w => doPmovP2v g w d
  | .pmovV2p g w => doPmovV2p g w d
  | .fadd g w => doFadd g w d
  | .fmul g w => doFmul g w d
  | .ffma g w => doFfma g w d
  | .fmin g w => doFmin g w d
  | .fmax g w => doFmax g w d
  | .frcp g w => doFrcp g w d
  | .fdiv g w => doFdiv g w d
  | .fsqrt g w => doFsqrt g w d
  | .frsq g w => doFrsq g w d
  | .fex2 g w => doFex2 g w d
  | .flg2 g w => doFlg2 g w d
  | .fsin g w => doFsin g w d
  | .fcos g w => doFcos g w d
  | .ftanh g w => doFtanh g w d
  | .cvt g w => doCvt g w d
  | .cvtPack g w => doCvtPack g w d
  | .cvtUnpack g w => doCvtUnpack g w d
  | .cvtRs g w => doCvtRs g w d
  | .mov g w => doMov g w d
  | .movSr g w => doMovSr g w d
  | .movTosr g w => doMovTosr g w d
  | .ldLocal g w => doLdLocal g w d
  | .stLocal g w => doStLocal g w d
  | .ldGlobal g w => doLdGlobal g w d
  | .stGlobal g w => doStGlobal g w d
  | .ldConst g w => doLdConst g w d
  | .bcopyG2l g w => doBcopyG2l g w d
  | .bcopyL2g g w => doBcopyL2g g w d
  | .bwait g w => doBwait g w d
  | .prefetchGlobal g w => doPrefetchGlobal g w d
  | .atomAdd g w => doAtomAdd g w d
  | .atomMin g w => doAtomMin g w d
  | .atomMax g w => doAtomMax g w d
  | .atomAnd g w => doAtomAnd g w d
  | .atomOr g w => doAtomOr g w d
  | .atomXor g w => doAtomXor g w d
  | .atomExch g w => doAtomExch g w d
  | .atomCas g w => doAtomCas g w d
  | .redAdd g w => doRedAdd g w d
  | .redMin g w => doRedMin g w d
  | .redMax g w => doRedMax g w d
  | .rclose g w => doRclose g w d
  | .fence g w => doFence g w d
  | .nop g w => doNop g w d
  | .bra g w => doBra g w d
  | .braI g w => doBraI g w d
  | .call g w => doCall g w d
  | .callI g w => doCallI g w d
  | .ret g w => doRet g w d
  | .sync g w => doSync g w d
  | .syncBlock g w => doSyncBlock g w d
  | .syncCluster g w => doSyncCluster g w d
  | .yield g w => doYield g w d
  | .exit g w => doExit g w d
  | .shfl g w => doShfl g w d
  | .vote g w => doVote g w d
  | .redux g w => doRedux g w d
  | .mmaF8F32 g w => doMmaF8F32 g w d
  | .mmaI8S32 g w => doMmaI8S32 g w d
  | .mmaBf16F32 g w => doMmaBf16F32 g w d
  | .mmaF16F32 g w => doMmaF16F32 g w d
  | .mmaMxF32 g w => doMmaMxF32 g w d
  | .mmaIx4F32 g w => doMmaIx4F32 g w d
  | .mmaI4S32 g w => doMmaI4S32 g w d
  | .mms g w => doMms g w d
  | .accLd g w => doAccLd g w d
  | .accSt g w => doAccSt g w d
  | .accZero g w => doAccZero g w d
  | .smxMax g w => doSmxMax g w d
  | .smxSum g w => doSmxSum g w d
  | .bkpt g w => doBkpt g w d
  | _ => d

/-- The two words at the pc of a group's running path, read as an instruction fetch reads them: a fault, a wait, or the
words (R133, R239). -/
inductive Fetch where
  | fault
  | wait (d : Dev)
  | ok (d : Dev) (w imm : DWord)

/-- One word at an instruction address. -/
def Dev.fetchWord (d : Dev) (c : Ctx) (va : Nat) : Dev × Cp :=
  match d.translate c.part c.run.fn va false with
  | (d1, .wait) => (d1, .wait)
  | (d1, x) => match x.line with
    | none => (d1, .fault)
    | some l => match d1.roRead c.part c.coreKey c.run.release l with
      | (d2, none) => (d2, .wait)
      | (d2, some data) => (d2, .ok (lineBytes data (x.pa % 128) 8))

/-- The words at the pc; the second only of a long form. -/
def Dev.fetch (d : Dev) (c : Ctx) : Fetch :=
  match d.fetchWord c c.path.pc with
  | (_, .fault) => .fault
  | (d1, .wait) => .wait d1
  | (d1, .ok w) =>
    if w.testBit 15 then
      match d1.fetchWord c (c.path.pc + 8) with
      | (_, .fault) => .fault
      | (d2, .wait) => .wait d2
      | (d2, .ok v) => .ok d2 (BitVec.ofNat 64 w) (BitVec.ofNat 64 v)
    else .ok d1 (BitVec.ofNat 64 w) 0

/-- Issues the instruction at the pc of a group's running path. A pc that is not fetched from, and a fetch that fails,
raise an address-kind fault, an opcode not assigned an illegal-instruction fault (R133, R144, R152). [DEDUCED, log 7] -/
def Dev.issueAtPc (d : Dev) (g : GroupRef) : Dev :=
  match d.ctx g with
  | none => d
  | some c =>
    if c.path.pc % 8 ≠ 0 || c.path.pc ≥ 2 ^ 56 then d.jobFault c.part causeAddress c.die
    else match d.fetch c with
      | .fault => d.jobFault c.part causeAddress c.die
      | .wait d1 => d1
      | .ok d1 w imm => match decodeIns g w imm with
        | none => d1.jobFault c.part causeIllegal c.die
        | some x => d1.issueIns x

end Sys2Proof.Machine
end

