-- ==== Sys2Proof/Machine/Debug.lean ====
section
/-! DEFINITION. The debug tasks (03 R117-R121, 11 R353). -/

namespace Sys2Proof.Machine

open Sys2Proof

/-- The halted group that a handle names, on which the kernel queues of a function may act (R118, R125). -/
def Dev.haltedBy (d : Dev) (p fn h : Nat) : Option (Nat × Group) :=
  let key := handleKey h
  match d.group key with
  | none => none
  | some g =>
    if g.halted.isSome && d.handle key == h && d.partOfStack (dieOfKey key) == some p && (decide (fn ≥ 0x100) || d.fnOfQueue g.q == fn)
      then some (key, g) else none

/-- DEBUG_ATTACH: a ring for the function that owns the queue (R119, R122). -/
def doDebugAttach (q i : Nat) (d : Dev) : Dev :=
  match d.working q i 0x48 with
  | none => d
  | some (p, t) =>
    let fn := d.fnOfQueue q
    if t.aux16 < 6 ∨ t.aux16 > 16 ∨ t.aux32 ≠ 0 ∨ t.body 0 % 64 ≠ 0 ∨ t.bodyZero [1, 2, 3] = false then d.finish p t stBadDescriptor 0 true
    else match d.range p fn true (t.body 0) (64 + 64 * 2 ^ t.aux16) with
      | (d1, .wait, _) => d1
      | (d1, .fault, _) => d1.finish p t stFetchFault 0 true
      | (d1, .ok _, _) =>
        if (d1.ringOf fn).isSome then d1.workDone t stDebugBusy 0
        else (d1.setRing fn { base := t.body 0, k := t.aux16 }).workDone t 0 0

def execDebugAttach (q i : Nat) (s : State) : Host.Outcome State Fault Refusal := done s (doDebugAttach q i s.dev)

/-! ## DEBUG_READ and DEBUG_WRITE (R353) -/

/-- What the regions of a halted group show: the group, its block and the context of its special registers. -/
structure View where
  key  : Nat
  grp  : Group
  blk  : Block
  ctx  : Ctx
  lane : Nat
  deriving DecidableEq, Repr

/-- The view of a halted group; none where its run or block is gone. -/
def Dev.viewOf (d : Dev) (p key : Nat) (g : Group) (lane : Nat) : Option View :=
  match d.run g.q g.i, d.blockOf key g with
  | some r, some b =>
    let path := match g.running with
      | some x => x
      | none => g.paths.headD { mask := 0, pc := 0, status := .heldBlock }
    some { key := key, grp := g, blk := b, lane := lane
           ctx := { key := key, die := dieOfKey key, core := coreOfKey key % 256, sub := subOfKey key, grp := g, path := path, part := p, run := r } }
  | _, _ => none

/-- Half 0 or 1 of a 64-bit value. -/
def half (v h : Nat) : Nat := v / 2 ^ (32 * h) % 2 ^ 32

/-- p0-p7 of a lane in bits [7:0]. -/
def Group.predByte (g : Group) (lane : Nat) : Nat :=
  (List.range 8).foldl (fun n k => n + (if (g.readP k).getLsbD lane then 2 ^ k else 0)) 0

/-- The word of the register region at an offset, a multiple of 4. -/
def Dev.regWord (d : Dev) (v : View) (off : Nat) : Nat :=
  if off < 0x8000 then (v.grp.readV (off / 128) (off % 128 / 4)).toNat
  else if off < 0x8200 then half (v.grp.readU ((off - 0x8000) / 8)).toNat (off % 8 / 4)
  else if off < 0x8280 then v.grp.predByte ((off - 0x8200) / 4)
  else if off < 0x83C0 then
    let x := (off - 0x8280) / 8
    if (srRegs x).isSome then half (srValue d v.ctx v.lane x) (off % 8 / 4) else 0
  else if off < 0x83C8 then half (v.grp.nextPc.getD 0) (off % 8 / 4)
  else 0

/-- The word of a region: registers, accumulator store, local memory. -/
def Dev.regionWord (d : Dev) (v : View) (region off : Nat) : Nat :=
  match region with
  | 0 => d.regWord v off
  | 1 => (v.grp.readAcc off).toNat
  | _ => v.blk.readLoc off 4

/-- Whether a range lies in a region of the group (R121). [DEDUCED, log 47] -/
def View.rangeOk (v : View) (region off n : Nat) : Bool :=
  match region with
  | 0 => decide (off + n ≤ 0x8400) && (decide (off ≥ 0x8000) || n == 0 || decide (min (off + n) 0x8000 ≤ 128 * v.grp.nv))
  | 1 => v.grp.accOk off n
  | _ => decide (off + n ≤ v.blk.lmem * 1024)

/-- Writes bytes of a number at a virtual address, line by line. -/
def Dev.cpWriteFor (d : Dev) (p fn : Nat) (acct : Option Nat) : Nat → Nat → Nat → Nat → Dev × Cp
  | 0, _, _, _ => (d, .ok 0)
  | _, _, 0, _ => (d, .ok 0)
  | fuel + 1, va, n, v =>
    let k := lineSpan va n
    match d.cpWrite p fn va k (v % 2 ^ (8 * k)) acct with
    | (d1, .ok _) => Dev.cpWriteFor d1 p fn acct fuel (va + k) (n - k) (v / 2 ^ (8 * k))
    | r => r

/-- The words of a range as one number. -/
def Dev.regionRead (d : Dev) (v : View) (region off n : Nat) : Nat :=
  (List.range (n / 4)).foldl (fun acc k => acc + d.regionWord v region (off + 4 * k) * 2 ^ (32 * k)) 0

/-- A write of one word of the register region: RO registers and pc are left as they are; a write of sr_flags clears
(R130). [DEDUCED, log 47] -/
def Group.setRegWord (g : Group) (off x : Nat) : Group :=
  if off < 0x8000 then g.writeV (off / 128) (off % 128 / 4) (BitVec.ofNat 32 x)
  else if off < 0x8200 then
    let i := (off - 0x8000) / 8
    g.writeU i (BitVec.ofNat 64 (putBytes (g.readU i).toNat (off % 8) 4 x))
  else if off < 0x8280 then
    (List.range 8).foldl (fun (h : Group) k =>
      h.writeP k (laneBit ((off - 0x8200) / 4)) (if x.testBit k then 0xFFFFFFFF else 0)) g
  else if off = 0x8280 + 8 * 0x20 then { g with flags := flagsClear g.flags (BitVec.ofNat 32 x) }
  else if off = 0x8280 + 8 * 0x21 ∨ off = 0x8284 + 8 * 0x21 then
    { g with seed := BitVec.ofNat 64 (putBytes g.seed.toNat (off % 8) 4 x) }
  else g

/-- A write of one word of a region. -/
def View.setWord (v : View) (region off x : Nat) : View :=
  match region with
  | 0 => { v with grp := v.grp.setRegWord off x }
  | 1 => { v with grp := v.grp.writeAcc off (BitVec.ofNat 32 x) }
  | _ => { v with blk := v.blk.writeLoc off 4 x }

/-- What both classes check first: the fields, the handle, the range; none when the task must wait for matrix work
(06 R223). -/
def Dev.debugView (d : Dev) (p : Nat) (t : Task) : Option (Nat ⊕ View) :=
  let off := t.body 1 % 2 ^ 32
  let n := t.body 1 / 2 ^ 32
  if t.aux16 > 2 ∨ off % 4 ≠ 0 ∨ n % 4 ≠ 0 ∨ t.bodyZero [2, 3] = false then some (.inl stBadDescriptor)
  else match d.haltedBy p (d.fnOfQueue t.q) t.aux32 with
    | none => some (.inl stDebugNotHalted)
    | some (key, g) =>
      match d.viewOf p key g (Config.debugLane d.fresh).val with
      | none => some (.inl stDebugNotHalted)
      | some v =>
        if !v.rangeOk t.aux16 off n then some (.inl stDebugRange)
        else if d.matrixBusy key then none
        else some (.inr v)

/-- Ends a debug task whose checks fail: a rejection, or an outcome. -/
def Dev.debugFail (d : Dev) (p : Nat) (t : Task) (st : Nat) : Dev :=
  if st = stBadDescriptor then d.finish p t st 0 true else d.workDone t st 0

/-- DEBUG_READ. -/
def doDebugRead (q i : Nat) (d : Dev) : Dev :=
  match d.working q i 0x49 with
  | none => d
  | some (p, t) => match d.debugView p t with
    | none => d
    | some (.inl st) => d.debugFail p t st
    | some (.inr v) =>
      let n := t.body 1 / 2 ^ 32
      match d.cpWriteFor p (d.fnOfQueue q) t.acct (n / 128 + 2) (t.body 0) n (d.regionRead v t.aux16 (t.body 1 % 2 ^ 32) n) with
      | (d1, .wait) => d1
      | (d1, .fault) => d1.finish p t stFetchFault 0 true
      | (d1, .ok _) => ({ d1 with fresh := d1.fresh + 1 } : Dev).workDone t 0 0

def execDebugRead (q i : Nat) (s : State) : Host.Outcome State Fault Refusal := done s (doDebugRead q i s.dev)

/-- DEBUG_WRITE. -/
def doDebugWrite (q i : Nat) (d : Dev) : Dev :=
  match d.working q i 0x4A with
  | none => d
  | some (p, t) => match d.debugView p t with
    | none => d
    | some (.inl st) => d.debugFail p t st
    | some (.inr v) =>
      let n := t.body 1 / 2 ^ 32
      match d.cpRead p (d.fnOfQueue q) (t.body 0) n t.acct with
      | (d1, .wait) => d1
      | (d1, .fault) => d1.finish p t stFetchFault 0 true
      | (d1, .ok x) =>
        let v1 := (List.range (n / 4)).foldl (fun (y : View) k => y.setWord t.aux16 (t.body 1 % 2 ^ 32 + 4 * k) (bytesAt x (4 * k) 4)) v
        let ck := coreOfKey v.key
        ((d1.setGroup v.key v1.grp).setCore ck ((d1.core ck).setBlock v1.blk)).workDone t 0 0

def execDebugWrite (q i : Nat) (s : State) : Host.Outcome State Fault Refusal := done s (doDebugWrite q i s.dev)

/-! ## DEBUG_STEP, DEBUG_RESUME, DEBUG_KILL, DEBUG_DETACH -/

/-- The group of a class whose body is 0 and whose aux32 is a handle; a status where there is none. -/
def Dev.debugGroup (d : Dev) (p : Nat) (t : Task) : Nat ⊕ (Nat × Group) :=
  if t.aux16 ≠ 0 ∨ t.bodyZero [0, 1, 2, 3] = false then .inl stBadDescriptor
  else match d.haltedBy p (d.fnOfQueue t.q) t.aux32 with
    | none => .inl stDebugNotHalted
    | some x => .inr x

/-- One instruction of a halted group, then halted again; none when the instruction must wait. -/
def Dev.stepGroup (d : Dev) (p key : Nat) (g : Group) : Dev × Bool :=
  let ck := coreOfKey key
  let g0 : Group := { g with halted := none }
  let g1 := if g0.breakDue then g0.breakAway else g0
  let act : Lanes := match g1.running with | some x => x.mask | none => 0
  let d1 := (d.setGroup key g1).bumpGen key
  let d2 := d1.issueAtPc { die := dieOfKey key, core := ck % 256, sub := subOfKey key, slot := slotOfKey key }
  if !d2.partRuns p then (d2, true)
  else if (d2.core ck).issued = (d1.core ck).issued then
    let co := d2.core ck
    let d3 := d2.setCore ck { co with gens := (d.core ck).gens }
    match d3.group key with
    | some x => (d3.setGroup key { x with halted := g.halted, paths := g.paths }, false)
    | none => (d3, false)
  else
    match d2.group key with
    | some x =>
      if x.ended then (d2.ringPut p (d.fnOfQueue g.q) (d1.haltRecord key 2 { x with paths := [] } act 0 (Config.recordPc d2.fresh).toNat), true)
      else if d2.matrixBusy key then (d2.setGroup key { x with stepping := some act, halted := none }, true)
      else (d2.endStep p key act, true)
    | none =>
      let d3 : Dev := { d2 with fresh := d2.fresh + 1 }
      (d3.ringPut p (d.fnOfQueue g.q) (d1.haltRecord key 2 { g with paths := [], exited := 0xFFFFFFFF } act 0 (Config.recordPc d2.fresh).toNat), true)

/-- DEBUG_STEP (R119). -/
def doDebugStep (q i : Nat) (d : Dev) : Dev :=
  match d.working q i 0x4B with
  | none => d
  | some (p, t) => match d.debugGroup p t with
    | .inl st => d.debugFail p t st
    | .inr (key, g) =>
      match d.stepGroup p key g with
      | (d1, true) => if d1.partRuns p then d1.workDone t 0 0 else d1
      | (d1, false) => d1

def execDebugStep (q i : Nat) (s : State) : Host.Outcome State Fault Refusal := done s (doDebugStep q i s.dev)

/-- Lets a halted group run on, with its RESUMED record. -/
def Dev.resumeGroup (d : Dev) (p key : Nat) (g : Group) : Dev :=
  let act : Lanes := match g.halted with | some h => h.active | none => 0
  ((d.putRecord p key 3 g act 0).setGroup key { g with halted := none }).bumpGen key

/-- DEBUG_RESUME (R119). -/
def doDebugResume (q i : Nat) (d : Dev) : Dev :=
  match d.working q i 0x4C with
  | none => d
  | some (p, t) => match d.debugGroup p t with
    | .inl st => d.debugFail p t st
    | .inr (key, g) => (d.resumeGroup p key g).workDone t 0 0

def execDebugResume (q i : Nat) (s : State) : Host.Outcome State Fault Refusal := done s (doDebugResume q i s.dev)

/-- DEBUG_KILL: a KILLED record, then the block ends (R119, R120). -/
def doDebugKill (q i : Nat) (d : Dev) : Dev :=
  match d.working q i 0x4D with
  | none => d
  | some (p, t) => match d.debugGroup p t with
    | .inl st => d.debugFail p t st
    | .inr (key, g) =>
      let act : Lanes := match g.halted with | some h => h.active | none => 0
      ((d.putRecord p key 4 g act 0).killBlock (coreOfKey key) g.block).workDone t 0 0

def execDebugKill (q i : Nat) (s : State) : Host.Outcome State Fault Refusal := done s (doDebugKill q i s.dev)

/-- DEBUG_DETACH: the function's halted groups resume, then its ring is detached (R119). -/
def doDebugDetach (q i : Nat) (d : Dev) : Dev :=
  match d.working q i 0x4E with
  | none => d
  | some (p, t) =>
    let fn := d.fnOfQueue q
    if t.aux16 ≠ 0 ∨ t.aux32 ≠ 0 ∨ t.bodyZero [0, 1, 2, 3] = false then d.finish p t stBadDescriptor 0 true
    else if (d.ringOf fn).isNone then d.workDone t stDebugNoRing 0
    else
      let gs := d.groups.filter (fun x => x.2.halted.isSome && d.fnOfQueue x.2.q == fn)
      let d1 := gs.foldl (fun (e : Dev) x => e.resumeGroup p x.1 x.2) d
      ({ d1 with rings := sdel d1.rings fn } : Dev).workDone t 0 0

def execDebugDetach (q i : Nat) (s : State) : Host.Outcome State Fault Refusal := done s (doDebugDetach q i s.dev)

end Sys2Proof.Machine
end

