-- ==== Sys2Proof/Machine/Sha.lean ====
section
/-! DEFINITION. SHA-512 and the verification of RSASSA-PSS with SHA-512, MGF1 with SHA-512 and a 64-byte salt (02 R66,
18 R515, R525, 19 R548). -/

namespace Sys2Proof.Machine

open Sys2Proof

/-- The round constants. -/
def shaK : List Nat :=
  [0x428A2F98D728AE22, 0x7137449123EF65CD, 0xB5C0FBCFEC4D3B2F, 0xE9B5DBA58189DBBC,
   0x3956C25BF348B538, 0x59F111F1B605D019, 0x923F82A4AF194F9B, 0xAB1C5ED5DA6D8118,
   0xD807AA98A3030242, 0x12835B0145706FBE, 0x243185BE4EE4B28C, 0x550C7DC3D5FFB4E2,
   0x72BE5D74F27B896F, 0x80DEB1FE3B1696B1, 0x9BDC06A725C71235, 0xC19BF174CF692694]
  ++ [0xE49B69C19EF14AD2, 0xEFBE4786384F25E3, 0x0FC19DC68B8CD5B5, 0x240CA1CC77AC9C65,
   0x2DE92C6F592B0275, 0x4A7484AA6EA6E483, 0x5CB0A9DCBD41FBD4, 0x76F988DA831153B5,
   0x983E5152EE66DFAB, 0xA831C66D2DB43210, 0xB00327C898FB213F, 0xBF597FC7BEEF0EE4,
   0xC6E00BF33DA88FC2, 0xD5A79147930AA725, 0x06CA6351E003826F, 0x142929670A0E6E70]
  ++ [0x27B70A8546D22FFC, 0x2E1B21385C26C926, 0x4D2C6DFC5AC42AED, 0x53380D139D95B3DF,
   0x650A73548BAF63DE, 0x766A0ABB3C77B2A8, 0x81C2C92E47EDAEE6, 0x92722C851482353B,
   0xA2BFE8A14CF10364, 0xA81A664BBC423001, 0xC24B8B70D0F89791, 0xC76C51A30654BE30,
   0xD192E819D6EF5218, 0xD69906245565A910, 0xF40E35855771202A, 0x106AA07032BBD1B8]
  ++ [0x19A4C116B8D2D0C8, 0x1E376C085141AB53, 0x2748774CDF8EEB99, 0x34B0BCB5E19B48A8,
   0x391C0CB3C5C95A63, 0x4ED8AA4AE3418ACB, 0x5B9CCA4F7763E373, 0x682E6FF3D6B2B8A3,
   0x748F82EE5DEFB2FC, 0x78A5636F43172F60, 0x84C87814A1F0AB72, 0x8CC702081A6439EC,
   0x90BEFFFA23631E28, 0xA4506CEBDE82BDE9, 0xBEF9A3F7B2C67915, 0xC67178F2E372532B]
  ++ [0xCA273ECEEA26619C, 0xD186B8C721C0C207, 0xEADA7DD6CDE0EB1E, 0xF57D4F7FEE6ED178,
   0x06F067AA72176FBA, 0x0A637DC5A2C898A6, 0x113F9804BEF90DAE, 0x1B710B35131C471B,
   0x28DB77F523047D84, 0x32CAAB7B40C72493, 0x3C9EBE0A15C9BEBC, 0x431D67C49C100D4C,
   0x4CC5D4BECB3E42B6, 0x597F299CFC657E2A, 0x5FCB6FAB3AD6FAEC, 0x6C44198C4A475817]

/-- The initial hash value. -/
def shaH : List Nat :=
  [0x6A09E667F3BCC908, 0xBB67AE8584CAA73B, 0x3C6EF372FE94F82B, 0xA54FF53A5F1D36F1,
   0x510E527FADE682D1, 0x9B05688C2B3E6C1F, 0x1F83D9ABFB41BD6B, 0x5BE0CD19137E2179]

def rotr64 (x n : Nat) : Nat := x >>> n ||| (x <<< (64 - n)) % 2 ^ 64

def add64 (a b : Nat) : Nat := (a + b) % 2 ^ 64

/-- The next word of the schedule from the last sixteen, the oldest first. -/
def shaNext (w : List Nat) : Nat :=
  let a := w.getD 1 0
  let b := w.getD 14 0
  let s0 := rotr64 a 1 ^^^ rotr64 a 8 ^^^ a >>> 7
  let s1 := rotr64 b 19 ^^^ rotr64 b 61 ^^^ b >>> 6
  add64 (add64 s1 (w.getD 9 0)) (add64 s0 (w.headD 0))

/-- One round on the eight working variables. -/
def shaRound (v : List Nat) (k w : Nat) : List Nat :=
  match v with
  | [a, b, c, d, e, f, g, h] =>
    let t1 := add64 (add64 h (rotr64 e 14 ^^^ rotr64 e 18 ^^^ rotr64 e 41))
      (add64 ((e &&& f) ^^^ ((2 ^ 64 - 1 - e) &&& g)) (add64 k w))
    let t2 := add64 (rotr64 a 28 ^^^ rotr64 a 34 ^^^ rotr64 a 39) ((a &&& b) ^^^ (a &&& c) ^^^ (b &&& c))
    [add64 t1 t2, a, b, c, add64 d t1, e, f, g]
  | _ => v

/-- The eighty rounds: the constants left, the last sixteen words, the working variables. -/
def shaRounds : List Nat → List Nat → List Nat → List Nat
  | [], _, v => v
  | k :: ks, w, v => shaRounds ks (w.tail ++ [shaNext w]) (shaRound v k (w.headD 0))

/-- One block of sixteen words. -/
def shaBlock (h w : List Nat) : List Nat := h.zipWith add64 (shaRounds shaK w h)

/-- The big-endian number of bytes. -/
def beNat (bs : List Byte) : Nat := bs.foldl (fun n b => 256 * n + b.toNat) 0

/-- A number as `n` big-endian bytes. -/
def beBytes (n v : Nat) : List Byte := (toBytes v n).reverse

/-- The sixteen words of a block of 128 bytes. -/
def shaWords (bs : List Byte) : Nat → List Nat
  | 0 => []
  | n + 1 => beNat (bs.take 8) :: shaWords (bs.drop 8) n

/-- The blocks of a padded message. -/
def shaBlocks : Nat → List Byte → List Nat → List Nat
  | 0, _, h => h
  | n + 1, bs, h => shaBlocks n (bs.drop 128) (shaBlock h (shaWords (bs.take 128) 16))

/-- SHA-512 as 64 bytes. [DESIGN CHOICE, log 51] -/
def sha512Bytes (m : List Byte) : List Byte :=
  let pad := (239 - m.length % 128) % 128
  let p := m ++ [0x80#8] ++ List.replicate pad 0#8 ++ beBytes 16 (8 * m.length)
  (shaBlocks (p.length / 128) p shaH).flatMap (beBytes 8)

/-- SHA-512 as a number whose byte 0 is the first byte of the digest. -/
def sha512 (m : List Byte) : Digest := BitVec.ofNat 512 (ofBytes (sha512Bytes m))

/-! ## RSASSA-PSS -/

/-- b^e mod n, with `k` bits of e. -/
def powMod (n : Nat) : Nat → Nat → Nat → Nat
  | 0, _, _ => 1 % n
  | k + 1, b, e => (if e % 2 = 1 then b else 1) * powMod n k (b * b % n) (e / 2) % n

/-- MGF1 with SHA-512: `blocks` blocks of 64 bytes from counter `c`. -/
def mgf1 (seed : List Byte) : Nat → Nat → List Byte
  | 0, _ => []
  | blocks + 1, c => sha512Bytes (seed ++ beBytes 4 c) ++ mgf1 seed blocks (c + 1)

/-- Whether a signature of a message digest verifies under an RSA-4096 modulus with exponent 65,537. [DESIGN CHOICE, log 51] -/
def pssVerify (modulus : Nat) (digest : List Byte) (sig : Nat) : Bool :=
  if modulus = 0 ∨ sig ≥ modulus then false
  else
    let em := beBytes 512 (powMod modulus 17 (sig % modulus) 65537)
    let masked := em.take 447
    let h := (em.drop 447).take 64
    let db0 := masked.zipWith (fun a b => a ^^^ b) ((mgf1 h 7 0).take 447)
    let db := (db0.headD 0 &&& 0x7F#8) :: db0.tail
    em.getD 511 0 == 0xBC#8 && !(em.headD 0).getLsbD 7 && (db.take 382).all (fun b => b == 0#8) && db.getD 382 0 == 1#8
      && sha512Bytes (List.replicate 8 0#8 ++ digest ++ db.drop 383) == h

end Sys2Proof.Machine
end

