-- ==== Sys2Proof/Machine/Ledger.lean ====
section
/-! DEFINITION. The energy ledger: ticks, attribution, pages, tickets, accounts (19). -/

namespace Sys2Proof.Machine

open Sys2Proof

/-! ## Division (R542) -/

/-- An item: key, weight. -/
abbrev Share := Nat × Nat

/-- Whether item `a` is before `b` in the order of remainders: larger first, then the lower key. -/
def remBefore (a b : Nat × Nat) : Bool := decide (a.2 > b.2) || (a.2 == b.2 && decide (a.1 < b.1))

/-- Inserts into a list ordered by remainders. -/
def remInsert (x : Nat × Nat) : List (Nat × Nat) → List (Nat × Nat)
  | [] => [x]
  | y :: ys => if remBefore x y then x :: y :: ys else y :: remInsert x ys

/-- The division of E among items by the largest remainders: key and share of each. -/
def divide (e : Nat) (items : List Share) : List (Nat × Nat) :=
  let w := items.foldl (fun n x => n + x.2) 0
  let q := items.map (fun x => (x.1, e * x.2 / w))
  let left := e - q.foldl (fun n x => n + x.2) 0
  let order := items.foldl (fun l x => remInsert (x.1, e * x.2 % w) l) []
  let up := (order.take left).map (fun x => x.1)
  q.map (fun x => (x.1, if up.contains x.1 then x.2 + 1 else x.2))

/-! ## Accounts and tickets (R535-R538, R544) -/

def acctKey (fn num : Nat) : Nat := fn * 65536 + num
def fnIdle (p : Nat) : Nat := 0x210 + p
def fnLoss (p : Nat) : Nat := 0x220 + p

/-- An account open in the page. -/
def Ticket.is (t : Ticket) (key : Nat) : Bool := acctKey t.fn t.num == key && !t.final

/-- The partitions that exist. -/
def Dev.partNums (d : Dev) : List Nat := (List.range 4).filter (fun p => (d.pconf p).isSome)

/-- The accounts that are always open (R535). -/
def Dev.standing (d : Dev) : List Ticket :=
  let t := fun (fn : Nat) (ovf : Bool) => ({ fn := fn, num := 0, tag := if ovf then 0xFFFFFFFF else 0, opened := d.time,
                                              openedHere := true, overflow := ovf } : Ticket)
  d.conf.slots.map (fun s => t s.inst true) ++ d.partNums.map (fun p => t (pf0 p) true) ++ [t 0x200 false, t 0x201 false]
    ++ d.partNums.map (fun p => t (fnIdle p) false) ++ d.partNums.map (fun p => t (fnLoss p) false)

/-- R479's counts by die and reason. -/
def Dev.throttleCounts (d : Dev) : List Nat := (List.range 32).map (fun k => sget 0 d.power.thr k)

/-- The meter begins with the first page at ready (R533). -/
def Dev.startLedger (d : Dev) : Dev :=
  { d with ledger := { running := true, pagesLost := d.ledger.pagesLost
                       page := { opened := d.time, closed := d.time, tickets := d.standing, throttle := d.throttleCounts } }
           counts := [] }

/-- Accounts of a function close: by an instance reset, or by a save (R555). -/
def Dev.closeAccounts (d : Dev) (fn : Nat) (reset : Bool) : Dev :=
  let pg := d.ledger.page
  { d with ledger := { d.ledger with page := { pg with tickets := pg.tickets.map (fun t =>
      if t.fn = fn ∧ t.num ≠ 0 ∧ !t.final then { t with final := true, closed := d.time, byReset := reset, byMigration := !reset } else t) } } }

/-! ## Ticks (R533, R539-R546) -/

/-- The shares of one compute or base domain: account key and microjoules (R541). [DEDUCED, log 55] -/
def Dev.domainShares (d : Dev) (dom e : Nat) : List (Nat × Nat) :=
  match d.partOfStack (dom % 8) with
  | none => [(acctKey 0x200 0, e)]
  | some p =>
    if (d.part p).state ≠ .running then [(acctKey (fnLoss p) 0, e)]
    else
      let mine := (d.counts.filter (fun x => x.1 / 2 ^ 32 == dom)).map (fun x => (x.1 % 2 ^ 32, x.2))
      let items := mine.filter (fun x => d.ledger.page.tickets.any (fun t => t.is x.1)) ++ [(acctKey (fnIdle p) 0, d.conf.idleCount)]
      if items.all (fun x => x.2 == 0) then [(acctKey (fnIdle p) 0, e)] else divide e items

/-- The shares of all accounts from a tick's input energy and the rail energies of the domains (R540, R541). -/
def Dev.tickShares (d : Dev) (e : Nat) (domains : List Nat) : List (Nat × Nat) :=
  let items := (List.range 18).map (fun k => (k, domains.getD k 0))
  let doms := if items.all (fun x => x.2 == 0) then [(16, e)] else divide e items
  doms.flatMap (fun x => if x.1 = 16 then [(acctKey 0x200 0, x.2)] else if x.1 = 17 then [(acctKey 0x201 0, x.2)] else d.domainShares x.1 x.2)

/-- What an account received in a tick. -/
def sumFor (key : Nat) (xs : List (Nat × Nat)) : Nat := (xs.filter (fun x => x.1 == key)).foldl (fun n x => n + x.2) 0

/-- Whether a released task is bound to an account. -/
def Dev.bound (d : Dev) (key : Nat) : Bool := d.tasks.any (fun t => t.acct == some key)

/-- A ticket at the end of a tick: energy, counts, ticks; an account marked closing with no task bound closes. [DEDUCED, log 55] -/
def Dev.tickTicket (d : Dev) (shares : List (Nat × Nat)) (t : Ticket) : Ticket :=
  let key := acctKey t.fn t.num
  if t.final then t
  else
    let s := sumFor key shares
    let n := (d.counts.filter (fun x => x.1 % 2 ^ 32 == key)).foldl (fun n x => n + x.2) 0
    let u := { t with energy := t.energy + s, total := (t.total + s) % 2 ^ 64, counts := t.counts + n, ticks := if s > 0 then t.ticks + 1 else t.ticks }
    if t.closing && !d.bound key then { u with final := true, closed := d.time } else u

/-- The page of a new interval: a ticket for every account that stays open (R545). -/
def Dev.nextPage (d : Dev) (old : Page) : Page :=
  { opened := d.time, closed := d.time, throttle := d.throttleCounts
    tickets := (old.tickets.filter (fun t => !t.final)).map (fun t =>
      { t with energy := 0, counts := 0, ticks := 0, openedHere := false, lost := false }) }

/-- The open page closes and waits to be written; the next opens (R546, R552). -/
def Dev.closePage (d : Dev) (byUnseal : Bool) (signed : Option (BitVec 4096)) : Dev :=
  let g := d.ledger
  let pg := g.page
  let old : Page := { pg with suspect := g.suspect, byUnseal := byUnseal, atLimit := decide (pg.tickets.length ≥ 65536), signed := signed
                              throttle := (d.throttleCounts.zip pg.throttle).map (fun x => x.1 - x.2) }
  { d with ledger := { g with waiting := g.waiting ++ [old], page := d.nextPage pg } }

/-- METER_TICK. -/
def doMeterTick (inputNj : Nat) (domains : List Nat) (d : Dev) : Dev :=
  if !d.ledger.running then d
  else
    let g := d.ledger
    let e := (g.residue + inputNj) / 1000
    let shares := d.tickShares e domains
    let pg := g.page
    let page : Page := { pg with closed := d.time, energy := pg.energy + e, ticks := pg.ticks + 1
                                 tickets := pg.tickets.map (fun t => d.tickTicket shares t) }
    let d1 : Dev := { d with ledger := { g with residue := (g.residue + inputNj) % 1000, energy := (g.energy + e) % 2 ^ 64, page := page }, counts := [] }
    if g.waiting.isEmpty && (decide (page.ticks ≥ d.conf.ledgerInterval * 10) || decide (page.tickets.length ≥ 65536)) then
      (d1.closePage false none).pumpAll
    else d1

def execMeterTick (inputNj : Nat) (domains : List Nat) (s : State) : Host.Outcome State Fault Refusal :=
  done s (doMeterTick inputNj domains s.dev)

/-! ## Pages (R544, R547-R552) -/

/-- The partition of an account's function; 0xFF for HUB and LINK. -/
def Dev.acctPart (d : Dev) (fn : Nat) : Nat :=
  if fn < 0x100 then (d.partOfLode (fn / 64)).getD 0xFF
  else if fn < 0x200 then fn % 4
  else if 0x210 ≤ fn then fn % 16
  else 0xFF

def bitIf (b : Bool) (n : Nat) : Nat := if b then 2 ^ n else 0

/-- The 64 bytes of a ticket (R544). -/
def Dev.ticketBytes (d : Dev) (seq : Nat) (t : Ticket) : Nat :=
  t.fn + t.num <<< 16 + (t.tag % 2 ^ 32) <<< 32 + (t.energy % 2 ^ 64) <<< 64 + (t.total % 2 ^ 64) <<< 128 + (t.opened % 2 ^ 64) <<< 192
    + (t.closed % 2 ^ 64) <<< 256 + (t.counts % 2 ^ 64) <<< 320 + (seq % 2 ^ 64) <<< 384 + (t.ticks % 2 ^ 32) <<< 448
    + d.acctPart t.fn <<< 480
    + (bitIf t.openedHere 0 + bitIf t.final 1 + bitIf t.byReset 2 + bitIf t.byMigration 3 + bitIf t.overflow 4 + bitIf t.lost 5) <<< 488

/-- The order of tickets in a page: function, account, opened. -/
def ticketBefore (a b : Ticket) : Bool :=
  decide (a.fn < b.fn) || (a.fn == b.fn && (decide (a.num < b.num) || (a.num == b.num && decide (a.opened < b.opened))))

def ticketInsert (x : Ticket) : List Ticket → List Ticket
  | [] => [x]
  | y :: ys => if ticketBefore x y then x :: y :: ys else y :: ticketInsert x ys

def ticketSort (ts : List Ticket) : List Ticket := ts.foldl (fun l t => ticketInsert t l) []

/-- One level of the Merkle tree: pairs are joined, an unpaired node passes up (R548). -/
def merkleLevel : List (List Byte) → List (List Byte)
  | a :: b :: rest => sha512Bytes (0x01#8 :: a ++ b) :: merkleLevel rest
  | xs => xs

def merkleUp : Nat → List (List Byte) → List (List Byte)
  | 0, xs => xs
  | n + 1, xs => merkleUp n (merkleLevel xs)

/-- The root over the leaves' bytes. -/
def merkleRoot (leaves : List (List Byte)) : List Byte :=
  (merkleUp 17 (leaves.map (fun t => sha512Bytes (0x00#8 :: t)))).headD []

/-- Slots of the window (R551). -/
def Dev.pageSlots (d : Dev) : Nat := d.conf.ledger.size / 0x402000

/-- The start_count of the running start (02 R69). [DEDUCED, log 55] -/
def Dev.startCount (d : Dev) : Nat := match d.flash.record.getLast? with | some e => e.startCount | none => 0

/-- The header of a page but for its signature: bytes 0x000-0x1FF as a number (R547). -/
def Dev.headerBytes (d : Dev) (serial : DWord) (seq : Nat) (pg : Page) (isSigned : Bool) (root : Nat) : Nat :=
  0x474C5A53 + 1 <<< 32
    + (bitIf isSigned 0 + bitIf pg.injected 1 + bitIf pg.suspect 2 + bitIf pg.lost 3 + bitIf pg.byUnseal 4 + bitIf pg.atLimit 5) <<< 48
    + (seq % 2 ^ 64) <<< 64 + serial.toNat <<< 128 + (d.startCount % 2 ^ 32) <<< 192 + pg.tickets.length <<< 224 + (pg.opened % 2 ^ 64) <<< 256
    + (pg.closed % 2 ^ 64) <<< 320 + (pg.energy % 2 ^ 64) <<< 384 + (pg.ticks % 2 ^ 32) <<< 448 + pg.injections <<< 480
    + (d.conf.ledgerInterval % 2 ^ 16) <<< 496 + d.conf.imageId.toNat <<< 512 + root <<< 1024 + d.ledger.prevRoot.toNat <<< 1536
    + ofBytes (pg.throttle.flatMap (fun n => toBytes n 8)) <<< 2048

/-- Completes the TAG_CLOSE tasks whose account's final ticket lies in a page (R538). -/
def Dev.closesDone (d : Dev) (pg : Page) (seq : Nat) : Dev :=
  { d with tasks := d.tasks.map (fun (t : Task) => match t.work with
      | .tagClose key => if pg.tickets.any (fun k => acctKey k.fn k.num == key && k.final && k.closing) then
          { t with state := .done 0 seq, work := .none } else t
      | _ => t) }

/-- The key is at hand (18 R512, R520). -/
def Dev.keyAvail (d : Dev) : Bool := d.start.keyReady && !d.sec.keyLock

/-- PAGE_WRITE: the oldest waiting page is written to its slot, tickets first, then the header, and LDG_PRODUCED rises;
it waits while no slot is free or the window's channels do not answer (R551, R552). [DEDUCED, log 55] -/
def doPageWrite (serial : DWord) (d : Dev) : Dev :=
  let g := d.ledger
  match g.waiting with
  | [] => d
  | pg :: rest =>
    if g.running && decide (g.produced < g.consumed + d.pageSlots) && decide (d.stage < 4) && d.live then
      let seq := g.produced
      let addr := d.conf.ledger.base + seq % d.pageSlots * 0x402000
      let ts := (ticketSort pg.tickets).map (fun t => d.ticketBytes seq t)
      let root := ofBytes (merkleRoot (ts.map (fun t => toBytes t 64)))
      let (n, d1) := d.takeFresh
      let sig := match pg.signed with | some x => some x | none => if d.keyAvail then some (Config.signature n) else none
      let mem1 := (ts.foldl (fun (r : Mem × Nat) t => (Mem.writeNat r.1 r.2 64 t, r.2 + 64)) (d.mem, addr + 1024)).1
      let mem2 := Mem.writeNat mem1 addr 512 (d.headerBytes serial seq pg sig.isSome root)
      let mem3 := Mem.writeNat mem2 (addr + 512) 512 (ofBytes (match sig with | some x => beBytes 512 x.toNat | none => []))
      let d2 : Dev := { d1 with mem := mem3, ledger := { g with waiting := rest, produced := seq + 1, prevRoot := BitVec.ofNat 512 root
                                                                unsigned := sig.isNone } }
      (d2.closesDone pg seq).pumpAll
    else d

def execPageWrite (s : State) : Host.Outcome State Fault Refusal := done s (doPageWrite s.fuses.serial s.dev)

/-- LDG_CONSUMED: a write frees slots; it neither lowers the value nor passes LDG_PRODUCED (R554). -/
def Dev.ldgConsume (d : Dev) (v : DWord) : Dev :=
  if d.live && d.mgmtOn && decide (v.toNat ≥ d.ledger.consumed) && decide (v.toNat ≤ d.ledger.produced) then
    { d with ledger := { d.ledger with consumed := v.toNat } }
  else d

def doLdgConsumed (v : DWord) (d : Dev) : Dev := if d.barOpen 0 then d.ldgConsume v else d

def execLdgConsumed (v : DWord) (s : State) : Host.Outcome State Fault Refusal := done s (doLdgConsumed v s.dev)

/-! ## TAG_CLOSE (R538) -/

/-- The account a TAG_CLOSE acts on: open with the tag, or already closing. [DEDUCED, log 55] -/
def Dev.taggedAccount (d : Dev) (fn tag : Nat) : Option Ticket :=
  match d.openAccount fn tag with
  | some t => some t
  | none => d.ledger.page.tickets.find? (fun t => t.fn == fn && t.num != 0 && t.tag == tag && !t.final)

/-- TAG_CLOSE: the account is marked closing; the task is done once its final page is written. [DEDUCED, log 55] -/
def doTagClose (q i : Nat) (d : Dev) : Dev :=
  match d.working q i clsTagClose with
  | none => d
  | some (p, t) =>
    if t.work ≠ .none then d
    else if !t.bodyZero [0, 1, 2, 3] then d.finish p t stBadDescriptor 0 true
    else match d.taggedAccount (d.fnOfQueue q) t.tag with
      | none => d.workDone t 0 (2 ^ 64 - 1)
      | some a =>
        let pg := d.ledger.page
        let key := acctKey a.fn a.num
        let d1 : Dev := { d with ledger := { d.ledger with page := { pg with tickets := updFirst (fun x => x.is key) (fun x => { x with closing := true }) pg.tickets } } }
        d1.setTask { t with work := .tagClose key }

def execTagClose (q i : Nat) (s : State) : Host.Outcome State Fault Refusal := done s (doTagClose q i s.dev)

end Sys2Proof.Machine
end

