-- ==== Sys2Proof/Machine/Mailbox.lean ====
section
/-! DEFINITION. Mailboxes: posts, acknowledges, the messages that the foreman and the assayer take (13 R402-R404, 14
R423-R427). -/

namespace Sys2Proof.Machine

open Sys2Proof

/-- Number of a mailbox. -/
def mailNum : MailboxId → Nat
  | .foreman => mbForeman
  | .secure => mbSecure
  | .toManager i => mbToManager i
  | .toTenant i => mbToTenant i

/-- The mailbox whose post register holds an offset of a register space (R423, R425). -/
def postRegister (space : RegSpace) (off : Nat) : Option MailboxId :=
  match space with
  | .pf0Bar0 =>
    if off / 16 = 0x8000 then some .foreman
    else if off / 16 = 0x8100 then some .secure
    else if 0x0C0000 ≤ off ∧ off < 0x100000 ∧ off % 0x400 < 16 then some (.toTenant ((off - 0x0C0000) / 0x400))
    else none
  | .vfBar0 k => if off / 16 = 0x100 ∧ 1 ≤ k then some (.toManager (k - 1)) else none
  | _ => none

/-- The function a register space belongs to: 0 physical function 0, k virtual function k. -/
def spaceFn : RegSpace → Nat
  | .pf0Bar0 | .pf0Bar2 | .pf0Cfg => 0
  | .vfBar0 k | .vfBar2 k | .vfCfg k => k

/-- The instance of a tenant mailbox. -/
def mailInst : MailboxId → Option Nat
  | .foreman | .secure => none
  | .toManager i | .toTenant i => some i

/-- Whether a tenant mailbox takes posts: a slot, and no reset or move of the instance in progress (R402, R434). [DEDUCED, log 32] -/
def Dev.postTaken (d : Dev) (mb : MailboxId) : Bool :=
  match mailInst mb with
  | none => true
  | some i => (d.slot i).isSome && (match (d.inst i).state with
      | .running | .freezing | .frozen | .restoring => true
      | _ => false)

def Dev.complete (d : Dev) (c : HostCpl) : Dev := { d with host := { d.host with last := c } }

/-- A refused post (R399, R402). -/
def Dev.refusePost (d : Dev) : Dev :=
  ({ d with host := { d.host with dmwrAborted := (d.host.dmwrAborted + 1) % 2 ^ 32 } }).complete .abort

/-- The fields of a message (R424). -/
def mailMsgOf (body : BitVec 128) : MailMsg :=
  { addr := body.extractLsb' 0 64, len := body.extractLsb' 64 32, tag := body.extractLsb' 96 16, seq := body.extractLsb' 112 16 }

/-- DMWR_POST (R402). -/
def doDmwrPost (space : RegSpace) (off size : Nat) (body : BitVec 128) (d : Dev) : Dev :=
  if !d.ioUp then d
  else match postRegister space off with
    | none => d.complete .unsupported
    | some mb =>
      if !d.barOpen (spaceFn space) || size ≠ 16 || off % 16 ≠ 0 then d.complete .unsupported
      else if !d.postTaken mb then d.refusePost
      else
        let x := d.mailbox (mailNum mb)
        if x.msgs.length ≥ 16 then d.refusePost
        else (d.setMailbox (mailNum mb) { x with msgs := x.msgs ++ [mailMsgOf body] }).complete .success

def execDmwrPost (space : RegSpace) (off size : Nat) (body : BitVec 128) (s : State) : Host.Outcome State Fault Refusal :=
  done s (doDmwrPost space off size body s.dev)

/-- POSTED_WRITE_DROP: a plain write to a post register is discarded and counted (R403). -/
def doPostedWriteDrop (space : RegSpace) (off : Nat) (d : Dev) : Dev :=
  if d.barOpen (spaceFn space) && (postRegister space off).isSome then
    { d with host := { d.host with dmwrDropped := (d.host.dmwrDropped + 1) % 2 ^ 32 } }
  else d

def execPostedWriteDrop (space : RegSpace) (off : Nat) (s : State) : Host.Outcome State Fault Refusal :=
  done s (doPostedWriteDrop space off s.dev)

/-- MBX_RX_ACK: the receiver's acknowledge removes the oldest message and fills the sender's slot (R426). The manager
receives on physical function 0, a tenant on its virtual function. -/
def doMbxRxAck (mb : MailboxId) (v : Word) (d : Dev) : Dev :=
  let fn := match mb with | .toTenant i => i + 1 | _ => 0
  match mailInst mb with
  | none => d
  | some _ =>
    if !d.barOpen fn then d
    else
      let x := d.mailbox (mailNum mb)
      match x.msgs with
      | [] => d
      | m :: ms =>
        if m.seq = v.extractLsb' 0 16 then (d.setMailbox (mailNum mb) { x with msgs := ms }).mailAck (mailNum mb) m.seq (v.extractLsb' 16 16)
        else d

def execMbxRxAck (mb : MailboxId) (v : Word) (s : State) : Host.Outcome State Fault Refusal := done s (doMbxRxAck mb v s.dev)

/-! ## Messages for the foreman and the assayer -/

/-- Tags of the foreman's commands (R428), and of the assayer's (18 R523). -/
def foremanTags : List Nat := [0x10, 0x11, 0x12, 0x13, 0x14, 0x20, 0x21]
def secureTags : List Nat := [1, 2, 3, 4, 5, 6, 7]

/-- The oldest message of a controller's mailbox, with the device without it, when its tag is the one given or is no
command's. [DEDUCED, log 32] -/
def Dev.takeMail (d : Dev) (mb : Nat) (tags : List Nat) (tag : Nat) : Option (MailMsg × Dev) :=
  let x := d.mailbox mb
  match x.msgs with
  | [] => none
  | m :: ms => if m.tag.toNat = tag ∨ !tags.contains m.tag.toNat then some (m, d.setMailbox mb { x with msgs := ms }) else none

end Sys2Proof.Machine
end

