-- ==== Sys2Proof/Machine/Instance.lean ====
section
/-! DEFINITION. The foreman: reset, freeze, save, restore and thaw of instances, stage-2 roots (14 R419-R440, 09
R303). -/

namespace Sys2Proof.Machine

open Sys2Proof

/-! ## Return codes (R427) -/

def rcOk : Nat := 0
def rcBadCommand : Nat := 1
def rcBadInstance : Nat := 2
def rcBadState : Nat := 3
def rcBusy : Nat := 4
def rcNotReady : Nat := 5
def rcBadAddress : Nat := 6
def rcSpace : Nat := 7
def rcBadRecord : Nat := 8
def rcMismatch : Nat := 9
def rcLost : Nat := 10

/-- The command of an instance completes: last_rc, the acknowledge, the state it leaves (R426, R429). -/
def Dev.cmdDone (d : Dev) (i rc : Nat) (st : InstState) : Dev :=
  let x := d.inst i
  match x.cmd with
  | none => d.setInst i { x with state := st }
  | some c => (d.setInst i { x with state := st, cmd := none, lastRc := rc }).mailAck mbForeman (BitVec.ofNat 16 c.seq) (BitVec.ofNat 16 rc)

/-! ## The memory and the work of an instance -/

/-- Whether a line is device memory of a slot. -/
def slotHas (s : ImgSlot) (l : Line) : Bool :=
  !l.host && decide (s.base ≤ l.addr) && decide (l.addr < s.base + s.sizeGib * 2 ^ 30)

/-- Whether an access in flight belongs to a queue of the function. -/
def Dev.ofFn (d : Dev) (fn q : Nat) : Bool := d.fnOfBlock (q / 64) == some fn

/-- Whether every access that the function's tasks have issued is performed (R238, R430 step 5). -/
def Dev.fnQuiet (d : Dev) (fn : Nat) : Bool :=
  d.cores.all (fun x => x.2.outs.all (fun o => !d.ofFn fn o.q) && x.2.copies.all (fun o => !d.ofFn fn o.q))
    && d.engOuts.all (fun o => !d.ofFn fn o.q)

/-- Whether a request at a slice comes from the function: by the access in flight that it is (R303). -/
def Dev.reqOfFn (d : Dev) (fn : Nat) (r : HomeReq) : Bool :=
  match r.src with
  | .core die core => (d.core (coreKey die core)).outs.any (fun o => o.id == r.rid && d.ofFn fn o.q)
  | .host => false
  | u => d.engOuts.any (fun o => o.unit == u && o.id == r.rid && d.ofFn fn o.q)

/-- The function's requests held at open lines are squashed, and with them the accesses they are (R303). -/
def Dev.squashHeld (d : Dev) (fn : Nat) : Dev :=
  let held := fun (x : Slice) (r : HomeReq) => x.isOpen r.line && d.reqOfFn fn r
  let ids := d.slices.flatMap (fun x => (x.2.waitq.filter (fun r => held x.2 r)).map (fun r => r.rid))
  { d with slices := d.slices.map (fun x => (x.1, { x.2 with waitq := x.2.waitq.filter (fun r => !held x.2 r) }))
           cores := d.cores.map (fun x => (x.1, { x.2 with outs := x.2.outs.filter (fun o => !(ids.contains o.id && d.ofFn fn o.q)) }))
           engOuts := d.engOuts.filter (fun o => !(ids.contains o.id && d.ofFn fn o.q)) }

/-- The open lines of a slice that lie in a slot's memory: those with a slot, and the spilled ones with their records. -/
def Dev.openLines (d : Dev) (p s : Nat) (m : ImgSlot) : List (Line × Option Shadow) :=
  let x := d.slice s
  let base := (d.spillRegion p s).1
  (x.slots.filter (fun y => slotHas m y.line)).map (fun y => (y.line, some y))
    ++ (x.spilled.filter (fun e => slotHas m e.line)).map (fun e =>
      (e.line, (spillParse (toBytes (Mem.readNat d.mem (base + 2048 * e.record) 2048) 2048)).map (fun y => { y.2 with line := e.line })))

/-- The slices of a partition, ascending. -/
def Dev.slicesOf (d : Dev) (p : Nat) : List Nat := (d.slices.map (fun x => x.1)).filter (fun s => d.partOfSlice s == some p)

/-- The open lines of a slice that lie in a slot's memory leave the sump; their ways keep the value they had, and what
was held at them is performed (R303). -/
def Dev.dropOpen (d : Dev) (p s : Nat) (m : ImgSlot) : Dev :=
  let x := d.slice s
  (d.setSlice s { x with slots := x.slots.filter (fun y => !slotHas m y.line), spilled := x.spilled.filter (fun e => !slotHas m e.line)
                         ways := x.ways.map (fun w => if slotHas m w.2.line then (w.1, { w.2 with redOpen := false }) else w) }).serve p s

/-- The cached lines of a slot's memory in a partition. -/
def Dev.cachedLines (d : Dev) (p : Nat) (m : ImgSlot) : List Line :=
  (d.slicesOf p).flatMap (fun s => ((d.slice s).ways.filter (fun w => slotHas m w.2.line)).map (fun w => w.2.line))

/-- Lines are made ready for a write, those that are not; none are left when the answer is true. -/
def Dev.readyLines (d : Dev) (p : Nat) (ls : List Line) : Dev × Bool :=
  let bad := ls.filter (fun l => !d.canWrite p l)
  if bad.isEmpty then (d, true) else (bad.foldl (fun (e : Dev) l => e.claim p l true) d, false)

/-- The memory of a slot reads 0: no pin is left and no correction write waits there (R277, R430 steps 6 and 7, 10
R314). [DEDUCED, log 33] -/
def Dev.zeroMemory (d : Dev) (p : Nat) (m : ImgSlot) : Dev :=
  let d1 := (d.cachedLines p m).foldl (fun (e : Dev) l => e.pokeLine p l (BitVec.allOnes 128) 0) d
  { d1 with mem := Mem.zero d1.mem m.base (m.sizeGib * 2 ^ 30)
            slices := d1.slices.map (fun x => (x.1, { x.2 with ways := x.2.ways.map (fun w => if slotHas m w.2.line then (w.1, { w.2 with pinned := false }) else w) }))
            chans := d1.chans.map (fun x => (x.1, { x.2 with corrections := x.2.corrections.filter (fun ca =>
              match d1.lineOfCa x.1 ca with
              | some (_, n) => !slotHas m ⟨false, n⟩
              | none => true) })) }

/-! ## Reset (R430-R432) -/

/-- Every waiting message of a mailbox is acknowledged with DISCARDED (R432). -/
def Dev.discardMail (d : Dev) (mb : Nat) : Dev :=
  let ms := (d.mailbox mb).msgs
  let d1 := d.setMailbox mb { d.mailbox mb with msgs := [] }
  ms.foldl (fun (e : Dev) m => e.mailAck mb m.seq 0xFFFF) d1

/-- Steps 1-4: the instance stops; its tasks, blocks, transfers and debug ring end without a record. -/
def Dev.resetBegin (d : Dev) (i : Nat) : Dev :=
  let x := d.inst i
  let d1 := d.setInst i { x with state := .resetting }
  let mine := d1.tasks.filter (fun t => d1.ofFn i t.q)
  let d2 := mine.foldl (fun (e : Dev) t => e.killTask t.q t.i) { d1 with rings := sdel d1.rings i }
  let d3 := d2.abortColls (fun c => c.fn == i)
  { d3 with tasks := d3.tasks.filter (fun t => !d3.ofFn i t.q), runs := d3.runs.filter (fun r => !d3.ofFn i r.q), rings := sdel d3.rings i }

/-- Step 8: queues, whose bootstrap registers keep what was written to them (11 R340), mailboxes, accounts. -/
def Dev.resetEnd (d : Dev) (i : Nat) : Dev :=
  let mine := (d.queues.map (fun x => x.1)).filter (fun q => d.ofFn i q)
  let d1 := mine.foldl (fun (e : Dev) q => e.setQueue q { bootRing := (e.queue q).bootRing, bootCfg := (e.queue q).bootCfg }) d
  ((d1.discardMail (mbToManager i)).discardMail (mbToTenant i)).closeAccounts i true

/-- Steps 5-9, as far as they come: held requests are squashed, every access performed, open lines discarded, memory
zeroed, the rest ended, and the instance runs. -/
def Dev.resetGo (d : Dev) (p i : Nat) (m : ImgSlot) : Dev :=
  let d1 := d.squashHeld i
  if !d1.fnQuiet i then d1
  else
    let d2 := (d1.slicesOf p).foldl (fun (e : Dev) s => e.dropOpen p s m) d1
    match d2.readyLines p (d2.cachedLines p m) with
    | (d3, false) => d3
    | (d3, true) =>
      let d4 := (d3.zeroMemory p m).resetEnd i
      let x := d4.inst i
      (d4.setInst i { x with resets := (x.resets + 1) % 2 ^ 32, recOff := 0, recCount := 0, fencesDropped := 0, killedBlocks := 0, flr := false }).cmdDone i rcOk .running

/-! ## Freeze (R435) -/

/-- Whether the instance's released tasks have drained (R435 steps 3 and 4). -/
def Dev.drained (d : Dev) (i : Nat) : Bool :=
  d.tasks.all (fun t => !d.ofFn i t.q || (t.timer.isNone && (match t.state with | .done _ _ => false | _ => true))) && d.fnQuiet i

/-- Inserts an open line in ascending order. -/
def lineInsert (x : Line × Shadow) : List (Line × Shadow) → List (Line × Shadow)
  | [] => [x]
  | y :: ys => if x.1.n < y.1.n then x :: y :: ys else y :: lineInsert x ys

/-- The record of form 1 of an open line in a slot's memory, and whether its fence word lay outside (R435). -/
def form1 (m : ImgSlot) (y : Shadow) : List Byte × Bool :=
  let lost := y.desc.fenceEn && !slotHas m ⟨false, y.desc.fence / 128⟩
  let z : Shadow := if lost then { y with desc := { y.desc with fenceEn := false, fence := 0 } } else y
  (spillBytes 1 z (y.line.addr - m.base) (z.desc.fence - m.base), lost)

/-- Writes a record of 2 KiB to sixteen device lines. -/
def Dev.pokeRecord (d : Dev) (p addr : Nat) (bs : List Byte) : Dev :=
  (List.range 16).foldl (fun (e : Dev) k =>
    e.pokeLine p ⟨false, addr / 128 + k⟩ (BitVec.allOnes 128) (BitVec.ofNat 1024 (ofBytes ((bs.drop (128 * k)).take 128)))) d

/-- Steps 5 and 6: the open lines of the instance's memory are written as records and leave the sump. [DEDUCED, log 33] -/
def Dev.freezeWrite (d : Dev) (p i : Nat) (m : ImgSlot) (recOff : Nat) : Dev :=
  let found := (d.slicesOf p).flatMap (fun s => (d.openLines p s m).map (fun x => (s, x)))
  match found.find? (fun x => x.2.2.isNone) with
  | some x => d.spillFailed p x.1
  | none =>
    let ys := (found.filterMap (fun x => x.2.2.map (fun y => (x.2.1, y)))).foldl (fun l x => lineInsert x l) []
    let x := d.inst i
    if recOff + 2048 * ys.length > m.sizeGib * 2 ^ 30 then
      (d.setInst i { x with recOff := recOff, recCount := 0, fencesDropped := 0 }).cmdDone i rcSpace .frozen
    else
      let area := ((List.range (16 * ys.length)).map (fun k => (⟨false, (m.base + recOff) / 128 + k⟩ : Line))).filter (fun l => !ys.any (fun y => y.1 == l))
      match d.readyLines p area with
      | (d1, false) => d1
      | (d1, true) =>
        let recs := ys.map (fun y => form1 m y.2)
        let d2 := (d1.slicesOf p).foldl (fun (e : Dev) s => e.dropOpen p s m) d1
        let d3 := (recs.foldl (fun (r : Dev × Nat) b => (r.1.pokeRecord p r.2 b.1, r.2 + 2048)) (d2, m.base + recOff)).1
        let z := d3.inst i
        (d3.setInst i { z with recOff := recOff, recCount := ys.length, fencesDropped := (recs.filter (fun b => b.2)).length }).cmdDone i rcOk .frozen

/-! ## Save (R436) -/

/-- Offset of a slot's cursor above the retired index (R329): of its head task, or of the next task to be read. [DEDUCED, log 33] -/
def Dev.cursorOf (d : Dev) (q s : Nat) : Nat :=
  let x := d.queue q
  match d.waitingHead q s with
  | some t => t.i - x.retired
  | none => x.fetched - x.retired

/-- The 64 bytes of a queue-table entry (R329). -/
def Dev.queueBytes (d : Dev) (q : Nat) : Nat :=
  let x := d.queue q
  if x.state = .free then 0
  else
    x.ringVa + x.log2 <<< 64 + x.state.code <<< 72 + (x.fn % 512 + (if x.kernel then 512 else 0) + x.prio * 1024) <<< 80
      + x.timeout <<< 96 + x.binding.toNat <<< 128 + x.errStatus <<< 160 + x.producer <<< 192 + x.retired <<< 256
      + ((List.range 4).foldl (fun n s => n + (d.cursorOf q s % 2 ^ 16) <<< (16 * s)) 0) <<< 320 + x.errIndex <<< 384 + x.squashed <<< 448

/-- The 128 bytes of a queue in an item: the entry and the bitmap of completed tasks. -/
def Dev.itemBytes (d : Dev) (q : Nat) : Nat :=
  let x := d.queue q
  d.queueBytes q + (x.ended.foldl (fun n e => if x.retired ≤ e.1 ∧ e.1 < x.retired + 256 then n ||| 2 ^ (e.1 - x.retired) else n) 0) <<< 512

/-- The 16 bytes of a message. -/
def MailMsg.bytes (m : MailMsg) : Nat := m.addr.toNat + m.len.toNat <<< 64 + m.tag.toNat <<< 96 + m.seq.toNat <<< 112

def mailBytes (ms : List MailMsg) : Nat := ofBytes (ms.flatMap (fun m => toBytes m.bytes 16))

/-- MBX_TX_ACK_k (R425). -/
def Mailbox.ack (x : Mailbox) (k : Nat) : Nat :=
  match sfind x.acks k with
  | some (seq, rc) => seq.toNat + rc.toNat <<< 16 + 1 <<< 32
  | none => 0

def Mailbox.acksBytes (x : Mailbox) : Nat := ofBytes ((List.range 16).flatMap (fun k => toBytes (x.ack k) 8))

/-- The record of an instance: every byte but the CRC, and the CRC over them (R436). -/
def Dev.saveRecord (d : Dev) (p i : Nat) (m : ImgSlot) : List Byte :=
  let x := d.inst i
  let bs := d.blocksOf i
  let up := d.mailbox (mbToManager i)
  let down := d.mailbox (mbToTenant i)
  let first := match d.pconf p with | some c => c.first | none => 0
  let head := toBytes (0x53495A53 + 1 <<< 32 + bs.length <<< 48 + d.conf.imageId.toNat <<< 64 + i <<< 128 + first <<< 144
      + m.sizeGib <<< 160 + x.recOff <<< 192 + x.recCount <<< 256 + x.fencesDropped <<< 288 + x.killedBlocks <<< 320 + m.accounts <<< 352
      + (d.time % 2 ^ 64) <<< 384 + up.msgs.length <<< 448 + down.msgs.length <<< 456) 128
    ++ toBytes (mailBytes up.msgs) 256 ++ toBytes (mailBytes down.msgs) 256 ++ toBytes up.acksBytes 128 ++ toBytes down.acksBytes 128
    ++ List.replicate 3196 0
  let items := bs.flatMap (fun b => (List.range 64).flatMap (fun k => toBytes (d.itemBytes (64 * b + k)) 128))
  head ++ toBytes (crc32 (head ++ items)) 4 ++ items

/-- INST_SAVE goes on: the record is written for physical function 0, then the accounts close (R436, 19 R555). -/
def Dev.saveGo (d : Dev) (p i : Nat) (m : ImgSlot) (dest : Nat) : Dev :=
  let bs := d.saveRecord p i m
  match d.cpWriteFor p (pf0 p) none (bs.length / 128 + 2) dest bs.length (ofBytes bs) with
  | (d1, .wait) => d1
  | (d1, .fault) => d1.cmdDone i rcBadAddress .frozen
  | (d1, .ok _) => (d1.closeAccounts i false).cmdDone i rcOk .saved

/-! ## Restore and thaw (R437, R438) -/

/-- A shadow is entered at the home of its line as a spilled line; none while no record is free or a copy of the line
is out. [DEDUCED, log 33] -/
def Dev.enterShadow (d : Dev) (p : Nat) (y : Shadow) : Dev × Bool :=
  match d.place p y.line with
  | none => (d, true)
  | some (s, set) =>
    if (d.slice s).isOpen y.line then (d, true)
    else if !d.canWrite p y.line then (d.claim p y.line true, false)
    else
      let d1 := d.pokeLine p y.line 0 0
      match d1.placeRecord p s y with
      | none => (d, false)
      | some d2 =>
        let x := d2.slice s
        match x.findWay set (d2.homeWays p) y.line with
        | some (k, w) => (d2.setSlice s (x.setWay k { w with redOpen := true }), true)
        | none => (d2, true)

/-- The record of form 1 at an offset of a slot's memory, with the addresses of its new place; none when a line of it
cannot be read now, an empty list where it is no record. [DEDUCED, log 33] -/
def Dev.readForm1 (d : Dev) (p : Nat) (m : ImgSlot) (off : Nat) : Dev × Option (List Shadow) :=
  let ls := (List.range 16).map (fun k => (⟨false, (m.base + off) / 128 + k⟩ : Line))
  let parts := ls.map (fun l => d.peek p l 0 128)
  if parts.any Option.isNone then (ls.foldl (fun (e : Dev) l => if (e.peek p l 0 128).isNone then e.claim p l false else e) d, none)
  else match spillParse (parts.flatMap (fun v => toBytes (v.getD 0) 128)) with
    | some (1, y) =>
      let z : Shadow := { y with line := ⟨false, (m.base + y.line.addr) / 128⟩, inst := m.inst
                                 desc := { y.desc with fence := if y.desc.fenceEn then m.base + y.desc.fence else 0 } }
      (d, some (if slotHas m z.line then [z] else []))
    | _ => (d, some [])

/-- Enters the form-1 records from number `k` of an area; true when all are entered. -/
def Dev.enterRecords (d : Dev) (p i : Nat) (m : ImgSlot) : Nat → Dev × Bool
  | 0 => (d, true)
  | fuel + 1 =>
    let x := d.inst i
    match x.cmd with
    | none => (d, true)
    | some c =>
      let k := c.step - 1
      if k ≥ x.recCount then (d, true)
      else match d.readForm1 p m (x.recOff + 2048 * k) with
        | (d1, none) => (d1, false)
        | (d1, some ys) =>
          match ys.foldl (fun (r : Dev × Bool) y => if r.2 then r.1.enterShadow p y else r) (d1, true) with
          | (d2, false) => (d2, false)
          | (d2, true) => Dev.enterRecords (d2.setInst i { d2.inst i with cmd := some { c with step := c.step + 1 } }) p i m fuel

/-- INST_THAW goes on: the records are entered, then the instance runs and its cursors resume. -/
def Dev.thawGo (d : Dev) (p i : Nat) (m : ImgSlot) : Dev :=
  match d.enterRecords p i m ((d.inst i).recCount + 1) with
  | (d1, false) => d1
  | (d1, true) => (d1.cmdDone i rcOk .running).pump p

/-- The bindings of a saved queue in the target partition; none when an engine falls outside it (R437). -/
def Dev.remapBinding (d : Dev) (p : Nat) (b from' f : Nat) : Option Nat :=
  (List.range 4).foldl (fun (r : Option Nat) s =>
    match r with
    | none => none
    | some acc =>
      let x := b / 2 ^ (8 * s) % 256
      if !bindValid x then some (acc + x * 2 ^ (8 * s))
      else
        let k := if bindType x = 2 then 1 else 2
        if bindNum x + k * f < k * from' then none
        else
          let n := bindNum x + k * f - k * from'
          if n < 16 ∧ d.partOfLode (engineLode (bindType x) n) = some p then some (acc + (x / 16 * 16 + n) * 2 ^ (8 * s)) else none) (some 0)

/-- The queue that 128 bytes of an item hold, for instance i; none when the remap fails. -/
def Dev.restoreQueue (d : Dev) (p i v from' : Nat) : Option Queue :=
  let at' := fun (k n : Nat) => bytesAt v k n
  let f := match d.pconf p with | some c => c.first | none => 0
  if at' 0 64 = 0 then some {}
  else match d.remapBinding p (at' 0x10 4) from' f with
    | none => none
    | some b =>
      let st := match at' 9 1 % 4 with | 0 => QState.free | 1 => .active | 2 => .error | _ => .destroying
      let retired := at' 0x20 8
      some { ringVa := at' 0 8, log2 := at' 8 1, state := st, fn := i, kernel := (at' 0xA 2).testBit 9, prio := at' 0xA 2 / 1024 % 4,
             timeout := at' 0xC 4, binding := BitVec.ofNat 32 b, errStatus := at' 0x14 2, producer := at' 0x18 8, retired := retired,
             errIndex := at' 0x30 8, squashed := at' 0x38 4, fetched := if st = .active then retired else at' 0x18 8
             ended := ((List.range 256).filter (fun k => (at' 0x40 32).testBit k)).map (fun k => (retired + k, true)) }

/-- Messages and acknowledge slots of a mailbox read back. -/
def restoreMail (n msgs acks : Nat) : Mailbox :=
  { msgs := (List.range (min n 16)).map (fun k => mailMsgOf (BitVec.ofNat 128 (bytesAt msgs (16 * k) 16)))
    acks := (List.range 16).foldl (fun l k =>
      let a := bytesAt acks (8 * k) 8
      if a.testBit 32 then sput l k (BitVec.ofNat 16 a, BitVec.ofNat 16 (a / 65536)) else l) [] }

/-- The checks of R437 on a record of `n` blocks, in order, and its effect on queues and mailboxes. -/
def Dev.restoreApply (d : Dev) (p i n : Nat) (m : ImgSlot) (v : Nat) : Dev :=
  let len := 0x1000 + 0x2000 * n
  let at' := fun (k c : Nat) => bytesAt v k c
  let bs := toBytes v len
  if crc32 (bs.take 0xFFC ++ bs.drop 0x1000) ≠ at' 0xFFC 4 then d.cmdDone i rcBadRecord .frozen
  else if m.sizeGib < at' 0x14 4 ∨ (d.blocksOf i).length < n ∨ m.accounts < at' 0x2C 2 then d.cmdDone i rcMismatch .frozen
  else
    let qs := ((d.blocksOf i).take n).zipIdx.flatMap (fun b => (List.range 64).map (fun k => (64 * b.1 + k, at' (0x1000 + 0x2000 * b.2 + 128 * k) 128)))
    let built := qs.map (fun x => (x.1, d.restoreQueue p i x.2 (at' 0x12 1)))
    if built.any (fun x => x.2.isNone) then d.cmdDone i rcMismatch .frozen
    else
      let d1 := built.foldl (fun (e : Dev) x => match x.2 with
        | some q => e.setQueue x.1 { q with bootRing := (e.queue x.1).bootRing, bootCfg := (e.queue x.1).bootCfg }
        | none => e) d
      let d2 := (d1.setMailbox (mbToManager i) (restoreMail (at' 0x38 1) (at' 0x80 256) (at' 0x280 128))).setMailbox (mbToTenant i)
        (restoreMail (at' 0x39 1) (at' 0x180 256) (at' 0x300 128))
      let x := d2.inst i
      match x.cmd with
      | none => d2
      | some c => d2.setInst i { x with recOff := at' 0x18 8, recCount := at' 0x20 4, cmd := some { c with step := 1 } }

/-- INST_RESTORE goes on: the record is read and applied, then its open lines are entered. [DEDUCED, log 33] -/
def Dev.restoreGo (d : Dev) (p i : Nat) (m : ImgSlot) : Dev :=
  match (d.inst i).cmd with
  | none => d
  | some c =>
    let d1 :=
      if c.step ≠ 0 then d
      else match d.cpRead p (pf0 p) c.addr 0x1000 with
        | (e, .wait) => e
        | (e, .fault) => e.cmdDone i rcBadAddress .frozen
        | (e, .ok v) =>
          let n := bytesAt v 6 2
          if bytesAt v 0 4 ≠ 0x53495A53 ∨ bytesAt v 4 2 ≠ 1 ∨ n = 0 ∨ n > 128 then e.cmdDone i rcBadRecord .frozen
          else match e.cpRead p (pf0 p) c.addr (0x1000 + 0x2000 * n) with
            | (e1, .wait) => e1
            | (e1, .fault) => e1.cmdDone i rcBadAddress .frozen
            | (e1, .ok w) => e1.restoreApply p i n m w
    match (d1.inst i).cmd with
    | none => d1
    | some c1 =>
      if c1.step = 0 then d1
      else match d1.enterRecords p i m ((d1.inst i).recCount + 1) with
        | (d2, false) => d2
        | (d2, true) => (d2.setInst i { d2.inst i with recCount := 0 }).cmdDone i rcOk .frozen

/-! ## A command in progress -/

/-- What stands between an instance and its state goes on, when its partition runs and its engines do. [DEDUCED, log 32] -/
def Dev.instGo (d : Dev) (i : Nat) : Dev :=
  match d.slot i, d.partOfLode (i / 64) with
  | some m, some p =>
    let x := d.inst i
    if !d.partRuns p || decide (d.stage ≥ 3) then d
    else match x.state, x.cmd with
      | .resetting, _ => d.resetGo p i m
      | .freezing, some c => if c.step = 1 then d.freezeWrite p i m c.addr else d
      | .frozen, some c => if c.tag = 0x11 then d.freezeWrite p i m c.addr else if c.tag = 0x14 then d.thawGo p i m else d
      | .saving, some c => d.saveGo p i m c.addr
      | .restoring, _ => d.restoreGo p i m
      | .saved, some c => if c.tag = 0x14 then d.thawGo p i m else d
      | _, _ => d
  | _, _ => d

/-- Every command in progress goes on. [DEDUCED, log 32] -/
def Dev.instTick (d : Dev) : Dev :=
  (d.insts.map (fun x => x.1)).foldl (fun (e : Dev) i => e.instGo i) d

/-! ## Foreman commands (R428, R429) -/

/-- An answer that ends a command at once. -/
def Dev.answerMail (d : Dev) (i : Option Nat) (seq : BitVec 16) (rc : Nat) : Dev :=
  let d1 := match i with
    | some k => d.setInst k { d.inst k with lastRc := rc }
    | none => d
  d1.mailAck mbForeman seq (BitVec.ofNat 16 rc)

/-- Whether the states of a command permit it (R428). -/
def permitted (tag : Nat) (st : InstState) : Bool :=
  match tag with
  | 0x11 => st == .running || st == .frozen
  | 0x12 | 0x13 => st == .frozen
  | 0x14 => st == .frozen || st == .saved
  | _ => st != .absent

/-- What a message must satisfy before its command begins, in order: readiness, the operands, the slot, the partition,
another command, the state. The instance, its slot and its partition when it passes. [DEDUCED, log 32] -/
def Dev.foremanCheck (d : Dev) (m : MailMsg) : (Option Nat × Nat) ⊕ (Nat × ImgSlot × Nat) :=
  let tag := m.tag.toNat
  let i := m.len.toNat % 256
  if d.start.state = .oasis then .inl (none, rcNotReady)
  else if !foremanTags.contains tag || m.len.toNat ≥ 256 || ((tag == 0x10 || tag == 0x14 || tag == 0x21) && m.addr != 0) then .inl (none, rcBadCommand)
  else match d.slot i, d.partOfLode (i / 64) with
    | some s, some p =>
      let x := d.inst i
      if !d.partRuns p then .inl (some i, rcNotReady)
      else if x.cmd.isSome then .inl (some i, rcBusy)
      else if !permitted tag x.state then .inl (some i, rcBadState)
      else .inr (i, s, p)
    | _, _ => .inl (none, if d.start.state = .ready then rcBadInstance else rcNotReady)

/-- The foreman takes the oldest message when it carries the tag, and answers it or begins its command. -/
def Dev.foreman (d : Dev) (tag : Nat) (f : Dev → MailMsg → Nat → ImgSlot → Nat → Dev) : Dev :=
  if !d.mgmtOn then d
  else match d.takeMail mbForeman foremanTags tag with
    | none => d
    | some (m, d1) =>
      match d1.foremanCheck m with
      | .inl (i, rc) => d1.answerMail i m.seq rc
      | .inr (i, s, p) => f d1 m i s p

/-- A command begins: it stays in progress until `cmdDone`. -/
def Dev.cmdBegin (d : Dev) (i : Nat) (m : MailMsg) (st : InstState) : Dev :=
  d.setInst i { d.inst i with state := st, cmd := some { tag := m.tag.toNat, seq := m.seq.toNat, addr := m.addr.toNat } }

/-- INST_RESET (R430). [DEDUCED, log 32] -/
def doInstReset (d : Dev) : Dev :=
  d.foreman 0x10 (fun d m i _ _ =>
    if (d.inst i).state = .resetting then (d.cmdBegin i m .resetting).instGo i
    else ((d.cmdBegin i m .resetting).resetBegin i).instGo i)

def execInstReset (s : State) : Host.Outcome State Fault Refusal := done s (doInstReset s.dev)

/-- INST_FREEZE: the cursors stop, halted groups' blocks end, the debug ring is detached; from FROZEN only the records
are written (R435). -/
def doInstFreeze (d : Dev) : Dev :=
  d.foreman 0x11 (fun d m i s _ =>
    let off := m.addr.toNat
    if off % 2048 ≠ 0 ∨ off ≥ s.sizeGib * 2 ^ 30 then d.answerMail (some i) m.seq rcBadAddress
    else if (d.inst i).state = .frozen then (d.cmdBegin i m .frozen).instGo i
    else
      let d1 := d.cmdBegin i m .freezing
      let bs := ((d1.queues.map (fun x => x.1)).filter (fun q => d1.ofFn i q)).flatMap (fun q => d1.haltedBlocks q)
      let d2 := bs.foldl (fun (e : Dev) b => e.killBlock b.1 b.2) d1
      { d2.setInst i { d2.inst i with killedBlocks := bs.length } with rings := sdel d2.rings i })

def execInstFreeze (s : State) : Host.Outcome State Fault Refusal := done s (doInstFreeze s.dev)

/-- FREEZE_DRAIN_COMPLETE: steps 3 and 4 are over; the records are written (R435). -/
def doFreezeDrainComplete (i : Nat) (d : Dev) : Dev :=
  let x := d.inst i
  match x.state, x.cmd with
  | .freezing, some c =>
    if d.drained i then (d.setInst i { x with cmd := some { c with step := 1 } }).instGo i else d
  | _, _ => d

def execFreezeDrainComplete (inst : Nat) (s : State) : Host.Outcome State Fault Refusal := done s (doFreezeDrainComplete inst s.dev)

/-- Whether a range of physical function 0 of a partition can be reached. -/
def Dev.pf0Range (d : Dev) (p : Nat) (write : Bool) (va n : Nat) : Bool := (d.range p (pf0 p) write va n).2.1 != .fault

/-- INST_SAVE (R436). -/
def doInstSave (d : Dev) : Dev :=
  d.foreman 0x12 (fun d m i _ p =>
    let n := 0x1000 + 0x2000 * (d.blocksOf i).length
    if m.addr.toNat % 4096 ≠ 0 || !d.pf0Range p true m.addr.toNat n then d.answerMail (some i) m.seq rcBadAddress
    else (d.cmdBegin i m .saving).instGo i)

def execInstSave (s : State) : Host.Outcome State Fault Refusal := done s (doInstSave s.dev)

/-- INST_RESTORE: every queue of the target is FREE and no line of its memory open (R437). -/
def doInstRestore (d : Dev) : Dev :=
  d.foreman 0x13 (fun d m i s p =>
    if m.addr.toNat % 4096 ≠ 0 || !d.pf0Range p false m.addr.toNat 0x1000 then d.answerMail (some i) m.seq rcBadAddress
    else if d.queues.any (fun x => d.ofFn i x.1 && x.2.state != .free) || (d.slicesOf p).any (fun k => !(d.openLines p k s).isEmpty) then
      d.answerMail (some i) m.seq rcBadState
    else (d.cmdBegin i m .restoring).instGo i)

def execInstRestore (s : State) : Host.Outcome State Fault Refusal := done s (doInstRestore s.dev)

/-- INST_THAW (R438). -/
def doInstThaw (d : Dev) : Dev :=
  d.foreman 0x14 (fun d m i _ _ =>
    let d1 := d.cmdBegin i m (d.inst i).state
    let x := d1.inst i
    (d1.setInst i { x with cmd := x.cmd.map (fun c => { c with step := 1 }) }).instGo i)

def execInstThaw (s : State) : Host.Outcome State Fault Refusal := done s (doInstThaw s.dev)

/-- S2_SET_ROOT: a root in memory of physical function 0, or 0 (R418, R419). -/
def doS2SetRoot (d : Dev) : Dev :=
  d.foreman 0x20 (fun d m i _ p =>
    let root := m.addr.toNat
    if root = 0 ∨ (root % 4096 = 0 ∧ d.pf0Memory p root) then (d.setInst i { d.inst i with s2root := root }).answerMail (some i) m.seq rcOk
    else d.answerMail (some i) m.seq rcBadAddress)

def execS2SetRoot (s : State) : Host.Outcome State Fault Refusal := done s (doS2SetRoot s.dev)

/-- S2_INVALIDATE: every cached translation of the instance is dropped (R421). -/
def doS2Invalidate (d : Dev) : Dev :=
  d.foreman 0x21 (fun d m i _ _ =>
    ({ d with xlate := d.xlate.filter (fun e => e.fn != i) }).answerMail (some i) m.seq rcOk)

def execS2Invalidate (s : State) : Host.Outcome State Fault Refusal := done s (doS2Invalidate s.dev)

/-! ## Function level reset of a virtual function (13 R397, R430, R440) -/

/-- An instance is reset without a command of the foreman; one that runs ends with LOST. -/
def Dev.resetFor (d : Dev) (i : Nat) : Dev :=
  match d.slot i, d.partOfLode (i / 64) with
  | some _, some p =>
    let x := d.inst i
    if x.state = .absent || !d.partRuns p then d
    else if x.state = .resetting then d.setInst i { x with flr := true }
    else
      let d1 := if x.cmd.isSome then d.cmdDone i rcLost x.state else d
      ((d1.setInst i { d1.inst i with flr := true }).resetBegin i).instGo i
  | _, _ => d

end Sys2Proof.Machine
end

