-- ==== Sys2Proof/Machine/Secure.lean ====
section
/-! DEFINITION. The assayer's secure mailbox: nonces, tokens, unsealing, fuses (18 R514, R516, R517, R521, R523-R530). -/

namespace Sys2Proof.Machine

open Sys2Proof

/-! ## Return codes (R524) -/

def scOk : Nat := 0
def scBadCommand : Nat := 0x101
def scBadToken : Nat := 0x102
def scBadSignature : Nat := 0x103
def scNonceStale : Nat := 0x104
def scWrongState : Nat := 0x105
def scFuseFailed : Nat := 0x106
def scRange : Nat := 0x107
def scBadAddress : Nat := 0x109

/-- The assayer writes an acknowledge (R426). -/
def Dev.secureAck (d : Dev) (m : MailMsg) (rc : Nat) : Dev := d.mailAck mbSecure m.seq (BitVec.ofNat 16 rc)

/-- Length of each command's operand; none where length is the operand itself. -/
def secureLength (tag : Nat) : Option Nat :=
  match tag with
  | 1 => some 32
  | 4 => none
  | 5 => some 512
  | _ => some 1088

/-- The assayer takes the oldest message when it carries the tag: an unknown tag or a wrong length is answered, else the
command runs. [DEDUCED, log 52] -/
def assayer (tag : Nat) (f : Fuses → Dev → MailMsg → Dev × Fuses) (u : Fuses) (d : Dev) : Dev × Fuses :=
  if !d.mgmtOn then (d, u)
  else match d.takeMail mbSecure secureTags tag with
    | none => (d, u)
    | some (m, d1) =>
      if !secureTags.contains m.tag.toNat then (d1.secureAck m scBadCommand, u)
      else match secureLength tag with
        | some n => if m.len.toNat ≠ n then (d1.secureAck m scBadCommand, u) else f u d1 m
        | none => f u d1 m

/-- Answers a command that changes no fuse. -/
def answer (u : Fuses) (d : Dev) (m : MailMsg) (rc : Nat) : Dev × Fuses := (d.secureAck m rc, u)

/-- Whether the assayer reaches host memory: CXL.io is up and PF0 has Bus Master Enable (13 R397). -/
def Dev.assayerHost (d : Dev) : Bool := d.ioUp && (d.fnCfg 0).busMaster

def execSecure (f : Fuses → Dev → Dev × Fuses) (s : State) : Host.Outcome State Fault Refusal :=
  let r := f s.fuses s.dev
  .next { s with dev := r.1, fuses := r.2 }

/-! ## Nonce (R526) -/

/-- GET_NONCE: 32 random bytes become the current nonce and go to the host. -/
def doGetNonce (writeOk : Bool) : Fuses → Dev → Dev × Fuses :=
  assayer 1 (fun u d m =>
    let (n, d1) := d.takeFresh
    let d2 : Dev := { d1 with sec := { d1.sec with nonce := some (Config.nonce n, d1.time) } }
    answer u d2 m (if writeOk && d.assayerHost then scOk else scBadAddress))

def execGetNonce (writeOk : Bool) (s : State) : Host.Outcome State Fault Refusal := execSecure (doGetNonce writeOk) s

/-- NONCE_EXPIRY: 10 s after its issue the nonce is cleared. -/
def doNonceExpiry (d : Dev) : Dev :=
  match d.sec.nonce with
  | some (_, t) => if d.mgmtOn && decide (d.time ≥ t + 10000000000) then { d with sec := { d.sec with nonce := none } } else d
  | none => d

def execNonceExpiry (s : State) : Host.Outcome State Fault Refusal := done s (doNonceExpiry s.dev)

/-! ## Tokens (R525) -/

/-- Bytes 0x000-0x23F of a token, which the signature covers. -/
def tokenBytes (t : Token) : List Byte :=
  toBytes (t.magic % 2 ^ 32 + (t.purpose % 2 ^ 16) <<< 32 + (t.signer % 2 ^ 16) <<< 48 + (t.keyIndex % 2 ^ 32) <<< 64
    + (t.arg % 2 ^ 32) <<< 96 + t.serial.toNat <<< 128 + t.nonce.toNat <<< 192) 64
    ++ toBytes t.ownerModulus 512

/-- The command's token, checked in the order of the codes of R524; 0 when it passes. [DEDUCED, log 52] -/
def tokenStatus (u : Fuses) (nonce : Option (BitVec 256 × Nat)) (purpose : Nat) (t : Token) : Nat :=
  let digest := sha512Bytes (tokenBytes t)
  let irxisOnly := decide (purpose ≥ 3)
  if t.magic ≠ 0x4B545A53 || t.purpose ≠ purpose || t.serial ≠ u.serial || !t.zero || decide (t.signer > 1)
      || (t.signer == 1 && t.keyIndex != 0) || (t.signer == 0 && t.ownerModulus != 0)
      || (if purpose = 4 then decide (t.arg > 3) else t.arg != 0) then scBadToken
  else if !(if t.signer = 0 then decide (t.keyIndex < 4) && !u.revoked.contains t.keyIndex && pssVerify (u.irxisKeys.getD t.keyIndex 0) digest t.signature
      else !irxisOnly && u.ownerDigest == some (sha512 (toBytes t.ownerModulus 512)) && pssVerify t.ownerModulus digest t.signature) then scBadSignature
  else match nonce with
    | some (n, _) => if n = t.nonce then scOk else scNonceStale
    | none => scNonceStale

/-- A command that a token allows: the state, the read from the host, the token, whose check clears the nonce. [DEDUCED, log 52] -/
def withToken (u : Fuses) (d : Dev) (m : MailMsg) (allowed readOk : Bool) (purpose : Nat) (t : Token) (f : Dev → Dev × Fuses) : Dev × Fuses :=
  if !allowed then answer u d m scWrongState
  else if !(readOk && d.assayerHost) then answer u d m scBadAddress
  else
    let d1 : Dev := { d with sec := { d.sec with nonce := none } }
    let rc := tokenStatus u d.sec.nonce purpose t
    if rc ≠ 0 then answer u d1 m rc else f d1

def Dev.isSealed (d : Dev) : Bool := d.sec.sealSt == .sealed

/-- TEST_AUTH (R527). -/
def doTestAuth (tok : Token) (readOk : Bool) : Fuses → Dev → Dev × Fuses :=
  assayer 3 (fun u d m => withToken u d m (d.isSealed && d.start.state == .ready) readOk 2 tok (fun e =>
    answer u { e with inj := { e.inj with testAuth := true } } m scOk))

def execTestAuth (tok : Token) (readOk : Bool) (s : State) : Host.Outcome State Fault Refusal := execSecure (doTestAuth tok readOk) s

/-! ## Fuses -/

/-- ROLLBACK_COMMIT: the counter of 128 fuses rises to v, between its value and the running image's version (R517, R523). A failure
leaves it anywhere below v. [DEDUCED, log 52; DESIGN CHOICE, log 53] -/
def doRollbackCommit (fuseOk : Bool) : Fuses → Dev → Dev × Fuses :=
  assayer 4 (fun u d m =>
    let v := m.len.toNat
    if !(d.isSealed && d.start.state == .ready) then answer u d m scWrongState
    else if v < u.counter ∨ v > min d.start.version 128 then answer u d m scRange
    else if v = u.counter then answer u d m scOk
    else if fuseOk then answer { u with counter := v } d m scOk
    else
      let (n, d1) := d.takeFresh
      answer { u with counter := u.counter + (Config.fuseBits n).toNat % (v - u.counter) } d1 m scFuseFailed)

def execRollbackCommit (fuseOk : Bool) (s : State) : Host.Outcome State Fault Refusal := execSecure (doRollbackCommit fuseOk) s

/-- OWNER_PROVISION: the owner digest is programmed once (R516). [DESIGN CHOICE, log 53] -/
def doOwnerProvision (modulus : Nat) (readOk fuseOk : Bool) : Fuses → Dev → Dev × Fuses :=
  assayer 5 (fun u d m =>
    if !(d.isSealed && u.ownerDigest.isNone) then answer u d m scWrongState
    else if !(readOk && d.assayerHost) then answer u d m scBadAddress
    else
      let digest := sha512 (toBytes modulus 512)
      if fuseOk then answer { u with ownerDigest := some digest } d m scOk
      else
        let (n, d1) := d.takeFresh
        let part := digest &&& Config.fuseBits n
        answer { u with ownerDigest := if part = 0 then none else some part } d1 m scFuseFailed)

def execOwnerProvision (modulus : Nat) (readOk fuseOk : Bool) (s : State) : Host.Outcome State Fault Refusal :=
  execSecure (doOwnerProvision modulus readOk fuseOk) s

/-- REVOKE_KEY: an index is revoked for good, unless none would be left (R514). [DEDUCED, log 52; DESIGN CHOICE, log 53] -/
def doRevokeKey (tok : Token) (readOk fuseOk : Bool) : Fuses → Dev → Dev × Fuses :=
  assayer 7 (fun u d m => withToken u d m d.isSealed readOk 4 tok (fun e =>
    let left := (List.range 4).filter (fun k => !u.revoked.contains k && k != tok.arg)
    if left.isEmpty then answer u e m scWrongState
    else if u.revoked.contains tok.arg then answer u e m scOk
    else if fuseOk then answer { u with revoked := u.revoked ++ [tok.arg] } e m scOk
    else answer u e m scFuseFailed))

def execRevokeKey (tok : Token) (readOk fuseOk : Bool) (s : State) : Host.Outcome State Fault Refusal := execSecure (doRevokeKey tok readOk fuseOk) s

/-! ## Unsealing (R528, R530) -/

/-- Step 1: UNSEAL_PENDING and key_lock; an armed injection is disarmed. -/
def Dev.unsealBegin (d : Dev) (seq : Nat) (fuses : Option Bool) : Dev :=
  { d with sec := { d.sec with sealSt := .pending, keyLock := true, run := some { step := 1, seq := seq, fuses := fuses } }
           inj := { d.inj with armed := none } }

/-- UNSEAL (R528). -/
def doUnseal (tok : Token) (readOk : Bool) : Fuses → Dev → Dev × Fuses :=
  assayer 2 (fun u d m => withToken u d m d.isSealed readOk 1 tok (fun e => (e.unsealBegin m.seq.toNat none, u)))

def execUnseal (tok : Token) (readOk : Bool) (s : State) : Host.Outcome State Fault Refusal := execSecure (doUnseal tok readOk) s

/-- The fuses of a field return: the seed, whose key then never unwraps, and the field-return fuse. A failure leaves
some of them (R530). [DESIGN CHOICE, log 53] -/
def fieldFuses (u : Fuses) (d : Dev) (fuseOk : Bool) : Dev × Fuses :=
  if fuseOk then (d, { u with keyTagOk := false, fieldReturn := true })
  else
    let (n, d1) := d.takeFresh
    let b := Config.fuseBits n
    (d1, { u with keyTagOk := u.keyTagOk && b.getLsbD 0, fieldReturn := u.fieldReturn || b.getLsbD 1 })

/-- Sets UNSEALED after a field return's fuses, and acknowledges. -/
def fieldEnd (u : Fuses) (d : Dev) (seq : BitVec 16) (fuseOk : Bool) : Dev × Fuses :=
  let r := fieldFuses u d fuseOk
  (({ r.1 with sec := { r.1.sec with sealSt := .unsealed, run := none, keyLock := true }, start := { r.1.start with keyReady := false } } : Dev).mailAck
    mbSecure seq (if fuseOk then 0 else BitVec.ofNat 16 scFuseFailed), r.2)

/-- FIELD_RETURN: steps 1-5 of an unseal, unless the part is UNSEALED already, then the fuses. [DESIGN CHOICE, log 5] -/
def doFieldReturn (tok : Token) (readOk fuseOk : Bool) (u : Fuses) (d : Dev) : Dev × Fuses :=
  if d.sec.run.isSome then (d, u)
  else assayer 6 (fun u d m => withToken u d m true readOk 3 tok (fun e =>
    if e.sec.sealSt = .unsealed then fieldEnd u e m.seq fuseOk else (e.unsealBegin m.seq.toNat (some fuseOk), u))) u d

def execFieldReturn (tok : Token) (readOk fuseOk : Bool) (s : State) : Host.Outcome State Fault Refusal := execSecure (doFieldReturn tok readOk fuseOk) s

/-- Step 2: the open page closes, and every page is signed while the key is there. -/
def Dev.unsealPages (d : Dev) : Dev :=
  if !d.ledger.running then d
  else
    let key := d.start.keyReady
    let sig := fun (n : Nat) => if key then some (Config.signature n) else none
    let n := d.fresh
    let d1 := ({ d with fresh := n + 1 + d.ledger.waiting.length }).closePage true (sig n)
    let g := d1.ledger
    { d1 with ledger := { g with waiting := g.waiting.zipIdx.map (fun x => if x.1.signed.isSome then x.1 else { x.1 with signed := sig (n + 1 + x.2) }) } }

/-- Step 3: every partition is lost; the ports go DOWN (15 R465). [DEDUCED, log 52] -/
def Dev.unsealLose (d : Dev) : Dev :=
  let d1 := d.loseAll .full 0x98 { time := d.time, kind := 3, moduleWide := true }
  { d1 with ports := d1.ports.map (fun x => (x.1, if x.2.state = .disabled then x.2 else
      { x.2 with state := .down, lanes := 0, retraining := false, retry := [], txq := [], ctrlIn := [], bulkIn := [], downAt := d1.time })) }

/-- Step 5: device memory but the event log and the ledger window reads 0, everything cached, held or computed is gone, and
every instance counts as reset. -/
def Dev.unsealErase (d : Dev) : Dev :=
  let d1 : Dev := { d with
    mem := d.mem.filter (fun c => areaHas d.conf.eventLog c.1 || areaHas d.conf.ledger c.1)
    chans := d.chans.map (fun x => (x.1, { x.2 with corrections := [] }))
    slices := [], cores := d.cores.map (fun x => (x.1, { split := x.2.split, issued := x.2.issued, gens := x.2.gens })), groups := [], munits := [], net := [] }
  (d1.conf.slots.map (fun s => s.inst)).foldl (fun (e : Dev) i =>
    if (e.inst i).state = .absent then e
    else
      let e1 : Dev := { e with rings := sdel e.rings i }
      let e2 := (e1.resetEnd i)
      let x := e2.inst i
      e2.setInst i { x with state := .running, cmd := none, resets := (x.resets + 1) % 2 ^ 32, recOff := 0, recCount := 0, fencesDropped := 0, killedBlocks := 0 }) d1

/-- One step of an unseal in progress, at a time tick: steps 2-6 of R528, or the fuses of R530 in place of step 6. [DESIGN CHOICE, log 5] -/
def unsealStep (u : Fuses) (d : Dev) : Dev × Fuses :=
  match d.sec.run with
  | none => (d, u)
  | some r =>
    let up := fun (e : Dev) => ({ e with sec := { e.sec with run := some { r with step := r.step + 1 } } } : Dev)
    match r.step with
    | 1 => (up d.unsealPages, u)
    | 2 => (up d.unsealLose, u)
    | 3 => (up { d with start := { d.start with keyReady := false }, sec := { d.sec with nonce := none } }, u)
    | 4 => (up d.unsealErase, u)
    | _ => match r.fuses with
      | some ok => fieldEnd u d (BitVec.ofNat 16 r.seq) ok
      | none => (({ d with sec := { d.sec with sealSt := .unsealed, run := none, unseals := min (d.sec.unseals + 1) 0xFFFF } } : Dev).mailAck
          mbSecure (BitVec.ofNat 16 r.seq) 0, u)

end Sys2Proof.Machine
end

