-- ==== Sys2Proof/Machine/Image.lean ====
section
/-! DEFINITION. The configuration image: the checks of phase 2 and the sealed configuration (02 R63-R66, R75-R77, 18
R515-R517). -/

namespace Sys2Proof.Machine

open Sys2Proof

/-! ## Layouts (01 R39) -/

/-- The partitions of a layout code: number, which is the lowest lode, and count of lodes. -/
def layoutParts (code : Nat) : List (Nat × Nat) :=
  match code with
  | 0 => [(0, 4)]
  | 1 => [(0, 2), (2, 2)]
  | 2 => [(0, 3), (3, 1)]
  | 3 => [(0, 1), (1, 3)]
  | 4 => [(0, 2), (2, 1), (3, 1)]
  | 5 => [(0, 1), (1, 2), (3, 1)]
  | 6 => [(0, 1), (1, 1), (2, 2)]
  | 7 => [(0, 1), (1, 1), (2, 1), (3, 1)]
  | _ => []

/-- The partition of a lode in a list of partitions. -/
def partHolding (parts : List (Nat × Nat)) (lode : Nat) : Option (Nat × Nat) :=
  parts.find? (fun p => decide (p.1 ≤ lode) && decide (lode < p.1 + p.2))

/-! ## Sections -/

/-- The section types, in their order (R65). -/
def sectionTypes : List Nat := [1, 2, 0x10, 0x11, 0x12, 0x13, 0x14, 0x15, 0x16, 0x17, 0x18, 0xFF]

/-- The body of the section of a type. -/
def bodyOf (im : Image) (type : Nat) : ImgBody :=
  match im.sections.find? (fun s => s.type == type) with
  | some s => s.body
  | none => .other

/-- Order 1: the header (R63). -/
def headerOk (h : ImgHeader) : Bool :=
  h.magic == 0x43335A53 && h.formatVersion == 1 && h.headerSize == 64 && decide (h.imageLength ≤ 0x07FF0000)
    && decide (h.securityVersion ≤ 128) && decide (h.flags ≤ 1) && h.reservedZero

/-- Bytes of a section with its header and padding (R64). -/
def sectionBytes (s : ImgSection) : Nat := 8 + (s.length + 7) / 8 * 8

/-- Order 2: the walk (R64, R65). -/
def orderOk (im : Image) : Bool :=
  im.sections.map (fun s => s.type) == sectionTypes && im.header.sectionCount == 12
    && im.sections.foldl (fun n s => n + sectionBytes s) 64 == im.header.imageLength

/-- The bytes of the image digest. -/
def digestBytes (x : Digest) : List Byte := toBytes x.toNat 64

/-- Orders 3 to 5: the signatures and the rollback count (R66, R514-R517); the reason, 0 when they pass. -/
def signatureReason (u : Fuses) (im : Image) : Nat :=
  match im.sections.find? (fun s => s.type == 0xFF) with
  | none => 0x204
  | some s =>
    match s.body with
    | .signature fmt flags key zero modulus irxis owner =>
      if s.version ≠ 1 ∨ s.length ≠ 0x610 ∨ fmt ≠ 1 ∨ !zero ∨ key > 3 ∨ u.revoked.contains key
        ∨ !pssVerify (u.irxisKeys.getD key 0) (digestBytes im.digest) irxis then 0x204
      else
        let present := im.header.flags % 2 == 1
        if (flags % 2 == 1) != present || (!present && (modulus != 0 || owner != 0))
          || (present && !pssVerify modulus (digestBytes im.digest) owner)
          || (match u.ownerDigest with | some x => !present || sha512 (toBytes modulus 512) != x | none => false) then 0x205
        else if im.header.securityVersion < u.counter then 0x206
        else 0
    | _ => 0x204

/-! ## Content (order 6) -/

/-- No two of a list agree on a key. -/
def allApart (l : List Nat) : Bool := l.zipIdx.all (fun x => (l.take x.2).all (fun y => y != x.1))

/-- The memory of a slot. -/
def slotArea (s : ImgSlot) : Area := { base := s.base, size := s.sizeGib * 2 ^ 30 }

def areasMeet (a b : Area) : Bool := decide (a.base < b.base + b.size) && decide (b.base < a.base + a.size)

/-- No two areas of a list overlap. -/
def allClear (l : List Area) : Bool := l.zipIdx.all (fun x => (l.take x.2).all (fun y => !areasMeet x.1 y))

/-- The slots of an image. -/
def imageSlots (im : Image) : List ImgSlot := match bodyOf im 0x11 with | .instanceSlots _ l => l | _ => []

/-- The layout code of an image. -/
def imageLayout (im : Image) : Nat := match bodyOf im 0x10 with | .partitionTable c => c | _ => 8

def imageParts (im : Image) : List (Nat × Nat) := layoutParts (imageLayout im)

/-- Whether an area lies in a partition's range (08 R252). -/
def insidePart (p : Nat × Nat) (a : Area) : Bool :=
  decide (p.1 * 0x6000000000 ≤ a.base) && decide (a.base + a.size ≤ (p.1 + p.2) * 0x6000000000)

/-- INSTANCE_SLOTS (R65, 14 R414, 19 R536). -/
def slotsOk (parts : List (Nat × Nat)) (zero : Bool) (slots : List ImgSlot) : Bool :=
  zero && allApart (slots.map (fun s => s.inst))
    && (slots.zip (slots.drop 1)).all (fun x => decide (x.1.inst < x.2.inst))
    && slots.all (fun s => decide (s.inst < 256) && decide (1 ≤ s.accounts) && decide (s.accounts ≤ 4096) && decide (1 ≤ s.sizeGib)
        && s.base % 2 ^ 30 == 0 && (match partHolding parts (s.inst / 64) with | some p => insidePart p (slotArea s) | none => false))
    && allClear (slots.map slotArea)
    && decide (slots.foldl (fun n s => n + s.accounts + 1) 0 + 256 * parts.length + 2 + 2 * parts.length ≤ 65536)

/-- POWER_ENVELOPE (16 R470). -/
def envelopeOk (parts : List (Nat × Nat)) (bmin bmax : Nat) (share ceil : List Nat) (baseCeil coreCap tj : Nat) (zero : Bool) : Bool :=
  zero && decide (2800 ≤ bmin) && decide (bmin ≤ bmax) && decide (bmax ≤ 4600)
    && (List.range 4).all (fun p => match parts.find? (fun x => x.1 == p) with
        | some x => decide (700 * x.2 ≤ share.getD p 0) && decide (550 ≤ ceil.getD p 0) && decide (ceil.getD p 0 ≤ 800) && ceil.getD p 0 % 5 == 0
        | none => share.getD p 0 == 0 && ceil.getD p 0 == 0)
    && decide ((List.range 4).foldl (fun n p => n + share.getD p 0) 0 ≤ bmax)
    && decide (650 ≤ baseCeil) && decide (baseCeil ≤ 800) && baseCeil % 5 == 0
    && decide (100 ≤ coreCap) && decide (coreCap ≤ 300) && decide (85 ≤ tj) && decide (tj ≤ 105)

/-- LINK_MAPS (15 R442). -/
def linksOk (stackOk : Bool) (moduleId : Nat) (portMap : List Word) (route : Sparse (BitVec 16)) : Bool :=
  stackOk && decide (moduleId < 4096) && portMap.length == 16 && portMap.all (fun w => w.toNat / 2 ^ 18 == 0)
    && route.all (fun x => decide (x.1 < 4096)) && sget 0#16 route moduleId == 0#16

/-- QUEUE_BUDGETS (11 R328, R364). -/
def budgetsOk (parts : List (Nat × Nat)) (slots : List ImgSlot) (owners timers : List (Nat × Nat)) (limit : Nat) : Bool :=
  allApart (owners.map (fun x => x.1)) && allApart (timers.map (fun x => x.1)) && timers.all (fun x => decide (x.1 < 512))
    && owners.all (fun x => decide (x.1 < 512) && slots.any (fun s => s.inst == x.2) && x.2 / 64 == x.1 / 128)
    && parts.all (fun p => decide ((owners.filter (fun x => decide (128 * p.1 ≤ x.1) && decide (x.1 < 128 * (p.1 + p.2)))).length < 128 * p.2))
    && decide (1 ≤ limit) && decide (limit ≤ 60000000)

/-- Cache quotas (08 R249). -/
def quotasOk (parts : List (Nat × Nat)) (quotas : List (Nat × Nat)) : Bool :=
  parts.all (fun p => let q := quotas.getD p.1 (9, 9); decide (q.1 ≤ 8) && decide (q.2 ≤ 8) && decide (q.1 + q.2 ≤ 12))

/-- The content check of one section; the body's length where its rule gives one. -/
def contentOk (im : Image) (s : ImgSection) : Bool :=
  let parts := imageParts im
  let slots := imageSlots im
  s.version == 1 && (match s.type, s.body with
    | 0x01, .firmware _ | 0x02, .firmware _ => true
    | 0x10, .partitionTable c => decide (c < 8)
    | 0x11, .instanceSlots zero l => s.length == 8 + 16 * l.length && slotsOk parts zero l
    | 0x12, .powerEnvelope bmin bmax share ceil baseCeil coreCap tj zero =>
      s.length == 32 && envelopeOk parts bmin bmax share ceil baseCeil coreCap tj zero
    | 0x13, .memoryOptions rate floor scrub zero =>
      s.length == 8 && zero && decide (rate ≤ 3) && decide (floor ≤ 1) && decide (scrub ≤ 1)
    | 0x14, .linkMaps stackOk moduleId portMap route => linksOk stackOk moduleId portMap route
    | 0x15, .queueBudgets owners timers limit => budgetsOk parts slots owners timers limit
    | 0x16, .resources _ _ _ quotas => quotasOk parts quotas
    | 0x17, .ledgerPolicy interval idle zero =>
      s.length == 16 && zero && decide (100 ≤ interval) && decide (interval ≤ 10000) && decide (idle ≤ 2 ^ 20)
    | 0x18, .optionSwitches _ _ _ _ width => width == 0 || width == 4 || width == 8
    | 0xFF, _ => true
    | _, _ => false)

/-! ## Contention (orders 7-9) -/

/-- Order 7 (R75). -/
def landOk (im : Image) : Bool := match bodyOf im 0x18 with | .optionSwitches _ _ _ pps width => !pps || width != 8 | _ => false

/-- Order 8 (R76). -/
def timersOk (im : Image) : Bool :=
  match bodyOf im 0x15 with
  | .queueBudgets _ timers _ => (imageParts im).all (fun p =>
      decide ((timers.filter (fun x => decide (128 * p.1 ≤ x.1) && decide (x.1 < 128 * (p.1 + p.2)))).foldl (fun n x => n + x.2) 0 ≤ 8192))
  | _ => false

/-- A carve-out lies in device memory with base and size multiples of 2 MiB. -/
def carveOk (a : Area) : Bool := a.base % 2 ^ 21 == 0 && a.size % 2 ^ 21 == 0 && decide (a.base + a.size ≤ 4 * 0x6000000000)

/-- Order 9 (R77, 14 R414). -/
def carveOutsOk (im : Image) : Bool :=
  match bodyOf im 0x16 with
  | .resources eventLog spill ledger _ =>
    let parts := imageParts im
    let spills := parts.map (fun p => spill.getD p.1 {})
    let all := [eventLog, ledger] ++ spills
    eventLog.size == 2 ^ 21 && decide (ledger.size ≥ 2 ^ 25) && all.all carveOk
      && (parts.zip spills).all (fun x => decide (x.2.size ≥ 2 ^ 25 * x.1.2) && x.2.size % (2 ^ 21 * x.1.2) == 0 && insidePart x.1 x.2)
      && allClear all && (imageSlots im).all (fun s => all.all (fun a => !areasMeet (slotArea s) a))
  | _ => false

/-- Orders 1 to 5: what the verification of an update checks too (20 R560); the reason, 0 when they pass. -/
def imageReason (u : Fuses) (im : Image) : Nat :=
  if !headerOk im.header then 0x201 else if !orderOk im then 0x202 else signatureReason u im

/-- Every check of phase 2 in the order of R515; the reason, 0 when they pass. [DEDUCED, log 49] -/
def phase2Reason (u : Fuses) (im : Image) : Nat :=
  let r := imageReason u im
  if r ≠ 0 then r
  else if !im.sections.all (contentOk im) then 0x203
  else if !landOk im then 0x210 else if !timersOk im then 0x211 else if !carveOutsOk im then 0x212
  else 0

/-! ## The sealed configuration -/

def maybeConf (im : Image) (f : Nat → Nat → PartConf) : List (Option PartConf) :=
  (List.range 4).map (fun p => ((imageParts im).find? (fun x => x.1 == p)).map (fun x => f x.1 x.2))

/-- The sealed configuration of an image that has passed phase 2 (R65, R67). -/
def sealImage (im : Image) : Conf :=
  let c0 : Conf := { layout := imageLayout im, slots := imageSlots im, imageId := im.header.imageId, cfgDigest := im.cfgDigest }
  let c1 : Conf := match bodyOf im 0x12 with
    | .powerEnvelope bmin bmax _ ceil baseCeil coreCap tj _ =>
      { c0 with bmin := bmin, bmax := bmax, ceil := ceil, baseCeil := baseCeil, coreCap := coreCap, tj := tj }
    | _ => c0
  let c2 : Conf := match bodyOf im 0x13 with
    | .memoryOptions rate floor scrub _ => { c1 with rate := rate, refreshFloor := floor, scrub12 := scrub == 1 }
    | _ => c1
  let c3 : Conf := match bodyOf im 0x14 with
    | .linkMaps _ moduleId portMap route => { c2 with moduleId := moduleId, portMap := portMap, route := route }
    | _ => c2
  let c4 : Conf := match bodyOf im 0x15 with
    | .queueBudgets owners timers limit => { c3 with owners := owners, timers := timers, timeoutLimit := limit }
    | _ => c3
  let c5 : Conf := match bodyOf im 0x17 with
    | .ledgerPolicy interval idle _ => { c4 with ledgerInterval := interval, idleCount := idle }
    | _ => c4
  let c6 : Conf := match bodyOf im 0x18 with
    | .optionSwitches _ _ _ pps width => { c5 with pps := pps, traceWidth := width }
    | _ => c5
  let share := match bodyOf im 0x12 with | .powerEnvelope _ _ s _ _ _ _ _ => s | _ => []
  let traps := match bodyOf im 0x18 with | .optionSwitches a b c _ _ => (a, b, c) | _ => ([], [], [])
  match bodyOf im 0x16 with
  | .resources eventLog spill ledger quotas =>
    { c6 with eventLog := eventLog, ledger := ledger
              parts := maybeConf im (fun p n =>
                { first := p, lodes := n, replicaWays := (quotas.getD p (0, 0)).1, pinWays := (quotas.getD p (0, 0)).2
                  spill := spill.getD p {}, share := share.getD p 0, trapDiv := traps.1.getD p false
                  trapUnc := traps.2.1.getD p false, indirect := traps.2.2.getD p false }) }
  | _ => c6

/-- The digest of a firmware section. -/
def firmwareDigest (im : Image) (type : Nat) : Digest := match bodyOf im type with | .firmware x => x | _ => 0

/-- The owner modulus of an image that carries an owner signature. -/
def ownerModulus (im : Image) : Option Nat :=
  match bodyOf im 0xFF with
  | .signature _ _ _ _ m _ _ => if im.header.flags % 2 = 1 then some m else none
  | _ => none

end Sys2Proof.Machine
end

