-- ==== Sys2Proof/Machine/Start.lean ====
section
/-! DEFINITION. Start, the start record, oasis mode, and the lands that begin a start (02 R68-R74, 01 R36-R37, 18
R512-R519, 21 R574-R576). -/

namespace Sys2Proof.Machine

open Sys2Proof

/-! ## The start record (R68, R69) -/

/-- The current start record. -/
def Dev.record (d : Dev) : Option StartEntry := d.flash.record.getLast?

/-- Consecutive failures of the current record; 0 when there is none. -/
def Dev.failures (d : Dev) : Nat := match d.record with | some e => e.consecFail | none => 0

def Dev.startsSoFar (d : Dev) : Nat := match d.record with | some e => e.startCount | none => 0

/-- Milliseconds since the release of RESET_N. -/
def Dev.elapsedMs (d : Dev) : Nat := d.time / 1000000 % 2 ^ 32

/-- Appends an entry; a full sector is erased first. -/
def Dev.appendEntry (d : Dev) (outcome : StartOutcome) (consec count reason : Nat) : Dev :=
  let e : StartEntry := { outcome := outcome, consecFail := consec, startCount := count, reason := reason, elapsedMs := d.elapsedMs
                          imageId := d.start.imageId, digest := d.start.digest.setWidth 256 }
  { d with flash := { d.flash with record := if d.flash.record.length ≥ 1024 then [e] else d.flash.record ++ [e] } }

/-- Marks a phase in the IN_PROGRESS entry of the start in progress. -/
def Dev.markPhase (d : Dev) (n : Nat) : Dev :=
  let d1 : Dev := { d with start := { d.start with phase := n } }
  match d.record with
  | some e => if e.outcome = .inProgress
      then { d1 with flash := { d.flash with record := d.flash.record.dropLast ++ [{ e with phase := n }] } } else d1
  | none => d1

/-! ## Fused values and measurements -/

/-- Good cores per die (00 R3). -/
def coresPerDie (u : Fuses) : Nat := match u.grade with | 0 => 160 | 1 => 152 | _ => 144

/-- CFG_GRADE (01 R43). -/
def gradeWord (u : Fuses) : Nat := 8 * coresPerDie u + coresPerDie u <<< 16

/-- HUB_SEAL_STATUS (18 R531). -/
def Dev.sealWord (d : Dev) (u : Fuses) : Nat :=
  (match d.sec.sealSt with | .sealed => 0 | .pending => 1 | .unsealed => 2)
    + bitIf d.keyAvail 2 + bitIf d.sec.keyLock 3 + bitIf u.fieldReturn 4 + bitIf u.ownerDigest.isSome 5
    + bitIf (d.sec.sealSt == .unsealed) 7 + (List.range 4).foldl (fun n k => n + bitIf (u.revoked.contains k) (8 + k)) 0
    + d.sec.unseals <<< 16

/-- The nine measurements (18 R519); no image in oasis mode. -/
def Dev.measureAll (d : Dev) (u : Fuses) (im : Option Image) : Measurements :=
  let part := fun (f : Image → Digest) => match im with | some x => (f x).toNat | none => 0
  { m := [Config.romDigest.toNat, part (fun x => firmwareDigest x 1), part (fun x => firmwareDigest x 2), part (fun x => x.cfgDigest),
          part (fun x => x.digest),
          (match im with | some x => x.header.securityVersion | none => 0) + u.counter <<< 32,
          (match u.ownerDigest with
           | some x => x.toNat
           | none => match im.bind ownerModulus with | some m => (sha512 (toBytes m 512)).toNat | none => 0),
          d.sealWord u + bitIf im.isNone 32,
          gradeWord u + u.hubStepping <<< 32 + u.baseStepping <<< 48] }

/-- Whether the assayer unwraps the identity key (18 R512, R521). -/
def Dev.keyAllowed (d : Dev) (u : Fuses) : Bool := !d.sec.keyLock && !u.fieldReturn && d.sec.sealSt != .unsealed

/-! ## Failure and oasis mode (R71, R74) -/

/-- What a start begins from: flash, lands, seal state and key_lock, PWR_STOP, PWR_SAG, pages_lost, the host's link and
configuration. [DEDUCED, log 49] -/
def Dev.cleared (d : Dev) : Dev :=
  { d.afterReset d.power.pins with
    time := d.time
    host := { d.host with waiting := [] }
    mgmt := { addr := d.mgmt.addr }
    start := { reason := d.start.reason, consec := d.start.consec } }

/-- Oasis mode is entered. [DEDUCED, log 49] -/
def Dev.enterOasis (d : Dev) (u : Fuses) : Dev :=
  let d1 := { d.cleared with start := { state := .oasis, phase := d.start.phase, reason := d.start.reason, consec := d.start.consec
                                        keyReady := d.keyAllowed u && u.keyTagOk }
                             faults := { d.faults with faultN := true, stopped := false, hubFault := false } }
  { d1 with sec := { d1.sec with meas := d1.measureAll u none } }

/-- The start fails (R71). An unanswering flash takes no entry. [DEDUCED, log 49] -/
def Dev.failStart (d : Dev) (u : Fuses) (reason : Nat) : Dev :=
  let d0 : Dev := { d with start := { d.start with reason := reason }, faults := { d.faults with faultN := true } }
  let oasis := decide (d.start.consec ≥ 3)
  let d1 := if d.start.env.flashAnswers
    then d0.appendEntry (if oasis then .oasis else .failed) d.start.consec d.startsSoFar reason else d0
  if oasis then d1.enterOasis u
  else { d1.cleared with start := { d1.start with state := .retryWait, image := none, keyReady := false, version := 0 }, faults := d1.faults
                         sec := { d1.sec with run := none, nonce := none } }

/-! ## The phases (R70) -/

/-- Highest stack-link version of a stepping whose letter is A or later (01 R34). -/
def slpMax (stepping : Nat) : Nat := if stepping / 256 % 256 ≤ 0x41 then 1 else 2

/-- Lanes of a bundle that fail, and the stacks with a failing lane (01 R37). -/
def lanesFailing (fail : List (Nat × Nat × Nat)) (stack bundle : Nat) : Nat :=
  ((List.range 34).filter (fun k => fail.contains (stack, bundle, k))).length

/-- CFG_SLP_STATUS after phase 4 (01 R36, R37, R45). -/
def slpWord (u : Fuses) (fail : List (Nat × Nat × Nat)) : Nat :=
  let good := fun (n : Nat) => (List.range 8).all (fun b => decide (lanesFailing fail n b ≤ 2))
  let spare := fun (n : Nat) => (List.range 8).any (fun b => decide (lanesFailing fail n b > 0))
  min (slpMax u.hubStepping) (slpMax u.baseStepping) + slpMax u.hubStepping <<< 4
    + (List.range 8).foldl (fun n k => n + bitIf (good k) (8 + k) + bitIf (good k && spare k) (16 + k)) 0

/-- Forms partitions, instances and ports from the sealed configuration (phase 8). -/
def Dev.form (d : Dev) (im : Image) : Dev :=
  let c := sealImage im
  { d with conf := c
           parts := c.parts.zipIdx.filterMap (fun x => if x.1.isSome then some (x.2, ({ state := .running } : Part)) else none)
           insts := c.slots.foldl (fun l s => sset {} l s.inst { state := .running }) []
           power := { d.power with rails := { d.power.rails with seif := true }, budget := c.bmax }
           ports := (List.range 16).foldl (fun l n =>
             if (c.portMap.getD n 0).getLsbD 0 then sset {} l n { state := .training } else l) [] }

/-- Core setpoints when the rails come on: core_ceiling. [DESIGN CHOICE, log 39] -/
def startSetpoints (im : Image) : List Nat :=
  let ceil := match bodyOf im 0x12 with | .powerEnvelope _ _ _ c _ _ _ _ => c | _ => []
  (List.range 16).map (fun x => match partHolding (imageParts im) (x / 4) with | some p => ceil.getD p.1 0 | none => 0)

/-- What one phase does: the device after it and the reason for which it fails, 0 when it does not. [DEDUCED, log 49] -/
def Dev.phase (d : Dev) (u : Fuses) (n : Nat) : Dev × Nat :=
  let env := d.start.env
  match n, d.start.image with
  | 2, _ =>
    match d.flash.image with
    | none => (d, 0x201)
    | some im =>
      let r := phase2Reason u im
      let hashed := r ≠ 0x201 ∧ r ≠ 0x202
      ({ d with start := { d.start with imageId := im.header.imageId, digest := if hashed then im.digest else 0
                                        image := if r = 0 then some im else none, version := if r = 0 then im.header.securityVersion else 0 } }, r)
  | 3, im =>
    let ok := d.keyAllowed u
    let d1 : Dev := { d with start := { d.start with keyReady := ok && u.keyTagOk } }
    ({ d1 with sec := { d1.sec with meas := d1.measureAll u im } }, if ok && !u.keyTagOk then 0x301 else 0)
  | 4, some im =>
    let d1 : Dev := { d with power := { d.power with rails := { d.power.rails with hub := true, core := true, base := true }, set := startSetpoints im }
                             start := { d.start with slp := slpWord u env.laneFail } }
    (d1, if (List.range 8).all (fun s => (List.range 8).all (fun b => decide (lanesFailing env.laneFail s b ≤ 2))) then 0 else 0x402)
  | 5, _ =>
    ({ d with power := { d.power with rails := { d.power.rails with mem := true } }, chans := [], recalBase := d.time },
     if env.density.any (fun x => x.2 != 64) then 0x502 else if env.trainFail then 0x501 else 0)
  | 6, _ => ({ d with mem := [], slices := [] }, if env.zeroUE then 0x601 else 0)
  | 7, _ => (d, if env.coreFail.any (fun c => decide (c.1 < 8) && decide (c.2 < 160) && !u.disabled.contains c) then 0x701 else 0)
  | 8, some im => (d.form im, if env.formOk then 0 else 0x801)
  | 9, _ =>
    let late : Dev := { d with time := max d.time (env.msEnd * 1000000) }
    let d1 := late.appendEntry .ready 0 late.startsSoFar 0
    (({ d1 with start := { d1.start with state := .ready, reason := 0, consec := 0 }, faults := { d1.faults with faultN := false } } : Dev).startLedger, 0)
  | _, _ => (d, 0)

/-- Whether a phase does not end: it hangs, or phase 4 waits for FLOW_OK_N (16 R487). [DEDUCED, log 49] -/
def Dev.phaseWaits (d : Dev) (n : Nat) : Bool :=
  d.start.env.hang == some n || (n == 4 && !d.power.pins.flowOk)

/-- Runs phases from `n` on; `fuel` phases at most. [DEDUCED, log 49] -/
def Dev.runPhases (u : Fuses) : Nat → Nat → Dev → Dev
  | 0, _, d => d
  | fuel + 1, n, d0 =>
    let d := d0.markPhase n
    if d.phaseWaits n then d
    else
      let r := d.phase u n
      let seen := if d.start.env.detector = some n ∧ n ≤ 8 then n * 256 + 0xFD else 0
      let reason := if r.2 ≠ 0 then r.2 else seen
      if reason ≠ 0 then
        let late : Dev := { r.1 with time := max r.1.time (r.1.start.env.msEnd * 1000000) }
        late.failStart u reason
      else if n = 9 then r.1
      else Dev.runPhases u fuel (n + 1) r.1

/-- Phase 1: the start record, R72, the IN_PROGRESS entry, the ROM check; then the phases that follow. [DEDUCED, log 49] -/
def Dev.phase1 (u : Fuses) (d : Dev) : Dev :=
  let env := d.start.env
  if d.phaseWaits 1 then d
  else if !env.flashAnswers then
    ({ d with start := { d.start with consec := d.start.consec + 1 } }).failStart u 0x102
  else
    let rec0 := d.record
    let found := match rec0 with
      | some e => (match e.outcome with
        | .inProgress => e.phase * 256 + 0xFE
        | .failed | .oasis => e.reason
        | _ => d.start.reason)
      | none => d.start.reason
    let d1 : Dev := { d with start := { d.start with reason := found, consec := d.failures } }
    let stay : Bool := match rec0 with
      | some e => decide (e.consecFail ≥ 3) && (e.outcome == .failed || e.outcome == .oasis || e.outcome == .inProgress)
      | none => false
    if stay then d1.enterOasis u
    else
      let d2 : Dev := { d1 with time := max d1.time (env.msInProgress * 1000000), start := { d1.start with consec := d.failures + 1 } }
      let d3 := d2.appendEntry .inProgress (d.failures + 1) ((d.startsSoFar + 1) % 2 ^ 32) 0
      if !env.romOk then d3.failStart u 0x101
      else if env.detector = some 1 then d3.failStart u 0x1FD
      else Dev.runPhases u 8 2 d3

/-- A start begins at phase 1. [DEDUCED, log 49] -/
def Dev.beginStart (d : Dev) (u : Fuses) (env : StartEnv) : Dev :=
  let d1 := d.cleared
  Dev.phase1 u { d1 with start := { d1.start with state := .starting, phase := 1, env := env } }

/-- Whether a start may begin from the lands: power, PWR_OK, no stage 5, none begun (21 R574, R576). -/
def Dev.mayStart (d : Dev) : Bool :=
  d.mgmtOn && d.power.pins.resetN && d.power.pins.pwrOk && decide (d.stage < 5) && d.start.state == .idle

/-- START: RESET_N is released; with PWR_OK asserted a start begins (R70). Device time is 0 and PWR_SAG is clear; an
EXTEST of a part that is not UNSEALED ends (18 R522). [DESIGN CHOICE, log 54] -/
def doStart (env : StartEnv) (u : Fuses) (d : Dev) : Dev :=
  if d.power.pins.resetN then d
  else
    let d1 : Dev := { d with power := { d.power with pins := { d.power.pins with resetN := true } }
                             sec := { d.sec with tap := { d.sec.tap with extest := d.sec.tap.extest && d.sec.sealSt == .unsealed } } }
    if !d1.mgmtOn || decide (d1.stage ≥ 5) then d1
    else
      let d2 : Dev := { d1 with time := 0, power := { d1.power with lowest := 0, entries := 0 } }
      if d2.mayStart then d2.beginStart u env else d2

def execStart (env : StartEnv) (s : State) : Host.Outcome State Fault Refusal := done s (doStart env s.fuses s.dev)

/-- PWR_OK_ASSERT: the first assertion arms the stages; with RESET_N released it begins a start (16 R482, 21 R574). -/
def doPwrOkAssert (env : StartEnv) (u : Fuses) (d : Dev) : Dev :=
  let d1 : Dev := { d with power := { d.power with pins := { d.power.pins with pwrOk := true }, armed := d.power.armed || d.mgmtOn } }
  if !d.power.pins.pwrOk && d1.mayStart then d1.beginStart u env else d1

def execPwrOkAssert (env : StartEnv) (s : State) : Host.Outcome State Fault Refusal := done s (doPwrOkAssert env s.fuses s.dev)

/-- PHASE_BOUND: the phase in progress exceeds its bound (R71, R73). -/
def doPhaseBound (u : Fuses) (d : Dev) : Dev :=
  if d.start.state = .starting then d.failStart u (d.start.phase * 256 + 0xFF) else d

def execPhaseBound (s : State) : Host.Outcome State Fault Refusal := done s (doPhaseBound s.fuses s.dev)

/-- START_RETRY: 100 ms after a FAILED entry (R71). -/
def doStartRetry (env : StartEnv) (u : Fuses) (d : Dev) : Dev :=
  if d.start.state = .retryWait ∧ d.mgmtOn then d.beginStart u env else d

def execStartRetry (env : StartEnv) (s : State) : Host.Outcome State Fault Refusal := done s (doStartRetry env s.fuses s.dev)

/-- Whether a start from oasis mode is permitted (R74). -/
def Dev.oasisStart (d : Dev) : Bool := d.mgmtOn && d.start.state == .oasis && d.failures == 0 && decide (d.stage < 5)

def startKey : Nat := 0xC1EA

/-- Erases the start-record sector and writes CLEARED (R74). -/
def Dev.clearRecord (d : Dev) : Dev :=
  ({ d with flash := { d.flash with record := [] } }).appendEntry .cleared 0 d.startsSoFar 0

/-- CLEAR_RECORD: the write of HUB_START_CTL, in any state (R74). -/
def doClearRecord (key : Word) (d : Dev) : Dev :=
  if key.toNat % 65536 = startKey ∧ d.barOpen 0 then d.clearRecord else d

def execClearRecord (key : Word) (s : State) : Host.Outcome State Fault Refusal := done s (doClearRecord key s.dev)

/-- HUB_START_CTL_START: action START (R74). -/
def doHubStartCtlStart (key : Word) (env : StartEnv) (u : Fuses) (d : Dev) : Dev :=
  if key.toNat % 65536 = startKey ∧ d.barOpen 0 ∧ d.oasisStart then d.beginStart u env else d

def execHubStartCtlStart (key : Word) (env : StartEnv) (s : State) : Host.Outcome State Fault Refusal :=
  done s (doHubStartCtlStart key env s.fuses s.dev)

/-- FLOW_OK_N_ASSERT: ends a deassertion; one shorter than 5 ms only counts (16 R485); a waiting phase 4 goes on (R487). -/
def doFlowOkNAssert (u : Fuses) (d : Dev) : Dev :=
  if d.power.pins.flowOk then d
  else
    let w := d.power
    let short := !w.flowOver && decide (d.time < w.flowAt + 5000000) && d.mgmtOn && w.pins.resetN
    let d1 : Dev := { d with power := { w with pins := { w.pins with flowOk := true }, flowOver := false
                                               glitches := if short then (w.glitches + 1) % 2 ^ 32 else w.glitches } }
    if d1.start.state = .starting ∧ d1.start.phase = 4 ∧ !d1.phaseWaits 4 then Dev.runPhases u 6 4 d1 else d1

def execFlowOkNAssert (s : State) : Host.Outcome State Fault Refusal := done s (doFlowOkNAssert s.fuses s.dev)

end Sys2Proof.Machine
end

