-- ==== Sys2Proof/Machine/Faults.lean ====
section
/-! DEFINITION. Fault reports and their containment, the detectors that the block's own commands carry, warm restart,
injection, the event log's consumer index (17 R493-R510, 12 R384-R386, 20 R563). -/

namespace Sys2Proof.Machine

open Sys2Proof

/-! ## The link falls (13 R394) -/

/-- The link is down: CXL.mem requests in flight are discarded; what waits for the host runs out its time. -/
def Dev.linkFalls (d : Dev) : Dev :=
  { d with host := { d.host with link := .down, modules := 0, rate := 0, waiting := [] }
           slices := d.slices.map (fun x => (x.1, { x.2 with waitq := x.2.waitq.filter (fun r => match r.kind with
             | .hostRd .. | .hostWr .. => false
             | _ => true) })) }

/-! ## Where a detector has power -/

/-- Whether a detector's unit has power. -/
def Dev.detPowered (d : Dev) (det unit : Nat) : Bool :=
  let r := d.power.rails
  let rail := fun (k : Nat) => if k < 16 then r.core else if k < 24 then r.base else if k < 48 then r.mem
    else if k = 48 then r.hub else if k = 49 then r.mgmt else if k = 50 then r.ucie && r.mgmt else r.seif
  match detPlace det unit with
  | none => false
  | some pl =>
    match det with
    | 0x0A => r.mgmt
    | 0x0B => rail unit
    | 0x0C => rail (unit / 2)
    | 0x0D => d.monitorOn unit
    | 0x10 => if unit < 96 then r.base else if unit = 96 then r.ucie && r.mgmt else if unit = 97 then r.seif else r.mgmt
    | _ => match pl with
      | .stack _ => r.base && d.stage < 5
      | .hub => r.hub
      | .seif _ => r.seif
      | .ucie => r.ucie && r.mgmt

/-! ## Containment (R494, R496, R497) -/

/-- The foreman and the assayer restart from ROM: the update ends, answers that wait are gone, the key with them. [DEDUCED, log 46] -/
def Dev.restartManagers (d : Dev) : Dev :=
  { d with mgmt := { d.mgmt with update := .idle, out := [] }, start := { d.start with keyReady := false } }

/-- A hub fault: every partition is lost, the rails go off, the controllers restart (R496). A mismatch in the fault
collector writes nothing to memory and is acted on by the power controller (R497). [DEDUCED, log 46] -/
def Dev.hubFault (d : Dev) (e : LogEntry) (collector : Bool) : Dev :=
  let d0 := (d.abortUnseal false).countReport e.detector true
  let loss : LogEntry := { e with kind := 3, moduleWide := true }
  let d1 := if collector then
      let d2 : Dev := { d0 with faults := { d0.faults with stopped := true } }
      (d2.logEntry { e with moduleWide := true }).stopModule .nothing 0x95 loss
    else (d0.logEntry { e with moduleWide := true }).stopModule .full 0x95 loss
  { d1 with faults := { d1.faults with hubFault := true } }.restartManagers

/-- The cause of a detected fault in a stack (R494). -/
def detCause (det : Nat) : Nat := if det = 0x01 then 0x91 else if det = 0x09 then 0x93 else 0x94

/-- Detectors that still act in oasis mode and after a stop (R510). -/
def actsInOasis (det : Nat) : Bool := det == 0x0A || det == 0x0C || det == 0x0D || det == 0x10

/-- The reason with which a start fails when a detector reports in a phase (R510). [DEDUCED, log 42] -/
def startReason (phase det : Nat) : Nat :=
  if phase = 5 ∧ det = 0x01 then 0x501 else if phase = 6 ∧ det = 0x01 then 0x601 else phase * 256 + 0xFD

/-- A detected fault is contained at its boundary. [DEDUCED, log 42] -/
def Dev.containFault (d : Dev) (e : LogEntry) (pl : Place) : Dev :=
  let e1 : LogEntry := { e with kind := 1, detected := true }
  match pl with
  | .stack n => match d.partOfStack n with
    | some p => d.detectedIn p (detCause e.detector) e1
    | none => (d.countReport e.detector true).logEntry e1
  | .hub => d.hubFault { e1 with startedLoss := true } (e.detector == 0x0A && e.unit == 3)
  | .seif n => ((d.countReport e.detector true).logEntry e1).portDown n
  | .ucie => ((d.countReport e.detector true).logEntry e1).linkFalls

/-- A detector's report reaches the fault collector (R494, R500, R510). An armed injection of the unit fires first. [DEDUCED, log 42; DEDUCED, log 45] -/
def Dev.report (d : Dev) (u : Fuses) (rep : FaultRep) : Dev :=
  match detPlace rep.detector rep.unit with
  | none => d
  | some pl =>
    if !d.detPowered rep.detector rep.unit then d
    else
      let inj := rep.injected && d.inj.aim == some (rep.detector, rep.unit)
      let d1 := if inj then d.fireInjection else d
      let e : LogEntry := { time := d.time, kind := 1, detector := rep.detector, injected := inj, unit := rep.unit, detail := rep.detail
                            partition := (d.detPart rep.detector rep.unit).getD 0xFF, location := locOf rep.detector rep.unit }
      if d.live || (d.start.state == .starting && d.start.phase == 9) then
        if rep.detected then d1.containFault e pl else d1.maskedReport e
      else match d.start.state with
        | .idle => d
        | .starting =>
          if rep.detected then ((d1.countReport rep.detector true).logEntry { e with detected := true }).failStart u (startReason d.start.phase rep.detector)
          else d1.maskedReport e
        | _ =>
          if actsInOasis rep.detector && rep.detected then
            let d2 := (d1.countReport rep.detector true).logEntry { e with detected := true }
            if rep.detector = 0x0A then d2.restartManagers else d2
          else d

/-- FAULT_REPORT. -/
def execFaultReport (rep : FaultRep) (s : State) : Host.Outcome State Fault Refusal := done s (s.dev.report s.fuses rep)

/-! ## Detectors with commands of their own -/

/-- Whether the armed injection aims at a detector's unit. -/
def Dev.aimed (d : Dev) (det unit : Nat) : Bool := d.inj.aim == some (det, unit)

/-- Fires the injection, when the unit has power. -/
def Dev.fireAt (d : Dev) (det unit : Nat) (b : Bool) : Dev := if b && d.detPowered det unit then d.fireInjection else d

/-- A detected report of a unit, injected when its injection has just fired. -/
def Dev.detect (d : Dev) (u : Fuses) (det unit : Nat) (injected : Bool) (detail : Nat) : Dev :=
  match detPlace det unit with
  | none => d
  | some pl =>
    if !d.detPowered det unit then d
    else
      let e : LogEntry := { time := d.time, kind := 1, detector := det, injected := injected, unit := unit, detail := BitVec.ofNat 64 detail
                            partition := (d.detPart det unit).getD 0xFF, location := locOf det unit }
      if d.live || (d.start.state == .starting && d.start.phase == 9) then d.containFault e pl
      else d.report u { detector := det, unit := unit, detected := true, detail := BitVec.ofNat 64 detail }

/-- Locator and pattern of the armed injection. -/
def Injection.locatorOf (x : Injection) : Nat := match x.armed with | some a => a.2.1.toNat | none => 0
def Injection.patternOf (x : Injection) : DWord := match x.armed with | some a => a.2.2 | none => 0

/-- CANARY: a handshake without acknowledgement for 1 ms while its receiver is idle; none counts at sag stage 4 (R498). -/
def doCanary (u : Fuses) (unit handshake : Nat) (ok : Bool) (d : Dev) : Dev :=
  if d.stage ≥ 4 then d
  else
    let inj := d.aimed 8 unit && d.inj.locatorOf == handshake
    let held := inj && decide (d.inj.patternOf.toNat ≥ 1000)
    let d1 := d.fireAt 8 unit inj
    if ok && !held then d1 else d1.detect u 8 unit inj (handshake % 65536)

def execCanary (unit handshake : Nat) (ok : Bool) (s : State) : Host.Outcome State Fault Refusal :=
  done s (doCanary s.fuses unit handshake ok s.dev)

/-- Bits set in a word. -/
def bitCount (w : BitVec 64) : Nat := ((List.range 64).filter (fun k => w.getLsbD k)).length

/-- CONFIG_CODE: the sweep of a configuration word masks one wrong bit and detects two; what becomes of more is open (R493,
R508). [DESIGN CHOICE, log 43] -/
def doConfigCode (u : Fuses) (unit word : Nat) (err : BitVec 64) (d : Dev) : Dev :=
  if !d.live then d
  else
    let inj := d.aimed 0x0F unit && d.inj.locatorOf / 2 ^ 16 == word
    let bad := if inj then err ^^^ d.inj.patternOf else err
    let d1 := d.fireAt 0x0F unit inj
    let n := bitCount bad
    let detail := word % 2 ^ 32 * 2 ^ 16 + (Config.syndrome bad.toNat).toNat * 2 ^ 48
    if n = 0 then d1
    else if n = 1 then
      match detPlace 0x0F unit with
      | none => d
      | some _ => d1.maskedReport { time := d.time, kind := 2, detector := 0x0F, injected := inj, unit := unit, detail := BitVec.ofNat 64 detail
                                    partition := (d.detPart 0x0F unit).getD 0xFF, location := locOf 0x0F unit }
    else if n = 2 then d1.detect u 0x0F unit inj detail
    else
      let (k, d2) := d1.takeFresh
      if Config.manyBits k = 0 then d2.detect u 0x0F unit inj detail else d2

def execConfigCode (unit word : Nat) (err : BitVec 64) (s : State) : Host.Outcome State Fault Refusal :=
  done s (doConfigCode s.fuses unit word err s.dev)

/-- A reading with a signed offset. -/
def offsetBy (x : Nat) (w : DWord) (scale : Nat) : Nat := ((x : Int) + w.toInt * (if scale = 0 then 1 else (x : Int)) / (if scale = 0 then 1 else (scale : Int))).toNat

def apart (a b : Nat) : Nat := if a ≥ b then a - b else b - a

/-- METER_CHECK: the two sense channels of a rail, in mA (R499). -/
def doMeterCheck (u : Fuses) (rail a b : Nat) (d : Dev) : Dev :=
  let inj := d.aimed 0x0B rail && d.detPowered 0x0B rail
  let x := if inj then offsetBy a d.inj.patternOf 1000 else a
  let d1 := d.fireAt 0x0B rail inj
  let diff := apart x b
  if diff * 2000 > 8 * (x + b) ∨ diff > 500 then
    d1.detect u 0x0B rail inj (rail % 256 + min (diff * 2000 / max 1 (x + b)) 65535 * 2 ^ 16)
  else d1

def execMeterCheck (rail a b : Nat) (s : State) : Host.Outcome State Fault Refusal := done s (doMeterCheck s.fuses rail a b s.dev)

/-- METER_INPUT_COMPARISON: a failure is logged and marks every page closed from then on; it loses nothing (R499). [DEDUCED, log 42] -/
def doMeterInputComparison (ok : Bool) (d : Dev) : Dev :=
  if ok || !d.ledger.running then d
  else
    let d1 := (d.countReport 0x0B true).logEntry { time := d.time, kind := 1, detector := 0x0B, detected := true, location := 8, unit := 49 }
    { d1 with ledger := { d1.ledger with suspect := true } }

def execMeterInputComparison (ok : Bool) (s : State) : Host.Outcome State Fault Refusal := done s (doMeterInputComparison ok s.dev)

/-- Nominal voltage of a fixed rail; the hub's is 0.75 V (16 R466). [DESIGN CHOICE, log 44] -/
def railNominal (r : Nat) : Nat := if r = 48 then 750 else Config.railNominal r

/-- Whether a reading is outside the window of its rail. -/
def outsideWindow (rail mv : Nat) : Bool :=
  if rail < 24 then decide (mv < 500) || decide (mv > 850) else decide (100 * apart mv (railNominal rail) > 5 * railNominal rail)

/-- VOLTAGE_MON: the two monitors of a rail, in mV (R493). The window of a core or base rail holds while it runs. [DEDUCED, log 42; DESIGN CHOICE, log 44] -/
def doVoltageMon (u : Fuses) (rail a b : Nat) (d : Dev) : Dev :=
  let ia := d.aimed 0x0C (2 * rail) && d.detPowered 0x0C (2 * rail)
  let ib := d.aimed 0x0C (2 * rail + 1) && d.detPowered 0x0C (2 * rail + 1)
  let x := if ia then offsetBy a d.inj.patternOf 0 else a
  let y := if ib then offsetBy b d.inj.patternOf 0 else b
  let d1 := d.fireAt 0x0C (if ib then 2 * rail + 1 else 2 * rail) (ia || ib)
  let running := decide (rail ≥ 24) || decide (d.stage < 4)
  let far := if rail < 24 then decide (apart x y > 20) else decide (100 * apart x y > 2 * railNominal rail)
  if running && outsideWindow rail x then d1.detect u 0x0C (2 * rail) (ia || ib) (2 * rail + min x 65535 * 2 ^ 16)
  else if running && outsideWindow rail y then d1.detect u 0x0C (2 * rail + 1) (ia || ib) (2 * rail + 1 + min y 65535 * 2 ^ 16)
  else if far then d1.detect u 0x0C (2 * rail) (ia || ib) (2 * rail + min x 65535 * 2 ^ 16)
  else d1

def execVoltageMon (rail a b : Nat) (s : State) : Host.Outcome State Fault Refusal := done s (doVoltageMon s.fuses rail a b s.dev)

/-- THERMAL_MON: the two monitors of a pair, in °C; the loop acts on an offset reading (R493, R508). -/
def doThermalMon (u : Fuses) (pair a b : Nat) (d : Dev) : Dev :=
  let ia := d.aimed 0x0D (2 * pair) && d.detPowered 0x0D (2 * pair)
  let ib := d.aimed 0x0D (2 * pair + 1) && d.detPowered 0x0D (2 * pair + 1)
  let x := if ia then offsetBy a d.inj.patternOf 0 else a
  let y := if ib then offsetBy b d.inj.patternOf 0 else b
  let d1 := d.fireAt 0x0D (if ib then 2 * pair + 1 else 2 * pair) (ia || ib)
  let d2 : Dev := if ia then { d1 with power := { d1.power with temps := sset 0 d1.power.temps (2 * pair) x } }
    else if ib then { d1 with power := { d1.power with temps := sset 0 d1.power.temps (2 * pair + 1) y } } else d1
  if apart x y > 10 then d2.detect u 0x0D (2 * pair) (ia || ib) (2 * pair + min x 65535 * 2 ^ 16) else d2

def execThermalMon (pair a b : Nat) (s : State) : Host.Outcome State Fault Refusal := done s (doThermalMon s.fuses pair a b s.dev)

/-- LOCKSTEP: the two copies of a controller (R497). -/
def doLockstep (u : Fuses) (unit : Nat) (agree : Bool) (d : Dev) : Dev :=
  let inj := d.aimed 0x0A unit
  let d1 := d.fireAt 0x0A unit inj
  if agree && !inj then d1 else d1.detect u 0x0A unit inj unit

def execLockstep (unit : Nat) (agree : Bool) (s : State) : Host.Outcome State Fault Refusal := done s (doLockstep s.fuses unit agree s.dev)

/-- CLOCK_MON: loss of lock or drift of a clock domain (R493, 21 R572). -/
def doClockMon (u : Fuses) (unit : Nat) (ok : Bool) (d : Dev) : Dev :=
  let inj := d.aimed 0x10 unit
  let d1 := d.fireAt 0x10 unit inj
  if ok && !inj then d1 else d1.detect u 0x10 unit inj unit

def execClockMon (unit : Nat) (ok : Bool) (s : State) : Host.Outcome State Fault Refusal := done s (doClockMon s.fuses unit ok s.dev)

/-! ## Warm restart (12 R384-R386) -/

/-- Whether a function belongs to the partition. -/
def Dev.fnIn (d : Dev) (p fn : Nat) : Bool := d.partOfFn fn == some p

/-- Step 9: queues under R385, debug rings, instances. -/
def Dev.restartQueues (d : Dev) (p : Nat) : Dev :=
  let lost := fun (q : Nat) (x : Queue) =>
    if d.partOfQueue q ≠ some p then x
    else if d.isBootQueue q then { bootRing := x.bootRing, bootCfg := x.bootCfg, errStatus := stPartitionLost }
    else match x.state with
      | .free => x
      | _ => { x with state := .error, errStatus := stPartitionLost, errIndex := x.retired, fetched := x.producer, ended := [] }
  let mine := match d.pconf p with
    | some c => (List.range (128 * c.lodes)).map (fun k => 64 * (128 * c.first + k))
    | none => []
  let d1 := (mine.filter (fun q => d.isBootQueue q)).foldl (fun (e : Dev) q => e.setQueue q { e.queue q with errStatus := stPartitionLost }) d
  { d1 with queues := d1.queues.map (fun x => (x.1, lost x.1 x.2))
            rings := sdrop (fun fn => d.fnIn p fn) d1.rings
            insts := d1.insts.map (fun x => if d.fnIn p x.1 ∧ x.2.state ≠ .absent then (x.1, { x.2 with state := .running }) else x)
            xlate := d1.xlate.filter (fun e => !d.fnIn p e.fn)
            seif := { d1.seif with early := d1.seif.early.filter (fun e => e.part != p) } }

/-- FAULT_N is released once every partition is RUNNING (R386). -/
def Dev.settleFaultN (d : Dev) : Dev :=
  if d.live && d.parts.all (fun x => x.2.state == .absent || x.2.state == .running) then { d with faults := { d.faults with faultN := false } } else d

/-- WARM_RESTART: steps 7-10 of R384. A core that fails its self-test ends it with LOST_RESTART. The restart pauses at sag
stages 3 and 4 (R388). [DESIGN CHOICE, log 28] -/
def doWarmRestart (p : Nat) (selfTestOk : Bool) (d : Dev) : Dev :=
  let x := d.part p
  if !(d.live && x.state == .containing && decide (d.stage < 3) && decide (p < 4)) then d
  else if !selfTestOk then
    (d.setPart p { x with state := .restarting }).losePart p 0x99 { time := d.time, kind := 3 }
  else match d.pconf p with
    | none => d
    | some c =>
      let d1 : Dev := { d with cores := d.cores.map (fun y => if d.partOfStack (y.1 / 256) = some p then (y.1, { issued := y.2.issued, gens := y.2.gens }) else y)
                               mem := Mem.zero d.mem c.spill.base c.spill.size
                               slices := sdrop (fun s => d.partOfSlice s == some p) d.slices
                               contBi := d.contBi.filter (fun n => !c.owns (n * 128)) }
      let d2 := d1.restartQueues p
      let d3 := (d2.setPart p { d2.part p with state := .running }).logEntry
        { time := d.time, kind := 5, partition := p, cause := x.cause, location := 0xFF }
      d3.settleFaultN.serveHeld

def execWarmRestart (p : Nat) (selfTestOk : Bool) (s : State) : Host.Outcome State Fault Refusal := done s (doWarmRestart p selfTestOk s.dev)

/-! ## Injection (R505-R507) -/

/-- auth of INJ_STATUS: 0 NONE, 1 TEST, 2 UNSEALED. -/
def Dev.injAuth (d : Dev) : Nat := if d.sec.sealSt = .unsealed then 2 else if d.inj.testAuth then 1 else 0

/-- The core that a unit number names, where it names one. -/
def detCore (det unit : Nat) : Option (Nat × Nat) :=
  if det = 0x03 ∨ (det = 0x0E ∧ unit < 2048) then some (unit / 256, unit % 256)
  else if det = 0x02 ∧ unit / 65536 = 1 then some (unit % 65536 / 256, unit % 256)
  else none

/-- Whether a locator names a place of the unit (R506); sizes are those of 00 R13. [DEDUCED, log 45] -/
def locatorOk (det unit l : Nat) : Bool :=
  let arr := l % 65536
  let word := l / 65536 % 2 ^ 32
  match det with
  | 0x01 => decide (l < 2 ^ 26)
  | 0x02 => decide (l < 2 ^ 48) && (match unit / 65536 with
      | 0 => (arr == 0 && decide (word < 2 ^ 20)) || (arr == 1 && decide (word < 2 ^ 16)) || arr == 2
      | 1 => (arr == 0 && decide (word < 81920)) || (decide (1 ≤ arr) && decide (arr ≤ 4) && decide (word < 8192))
      | 2 => decide (arr ≤ 1)
      | 3 => arr == 0 && decide (word < 131072)
      | _ => arr == 0)
  | 0x03 =>
    let idx := l % 256
    let file := l / 2 ^ 15 % 4
    if l / 2 ^ 14 % 2 = 0 then
      decide (l < 2 ^ 23) && (match file with
        | 0 => l / 2 ^ 22 == 0
        | 1 => decide (idx < 64) && l / 2 ^ 17 % 32 == 0
        | 2 => decide (idx < 8) && l / 2 ^ 22 == 0
        | _ => decide (idx ≤ 0x14 ∨ (0x20 ≤ idx ∧ idx ≤ 0x23)) && l / 2 ^ 17 == 0)
    else
      let line := l / 2 ^ 24
      l % 2 ^ 14 == 0 && l / 2 ^ 21 % 8 == 0 && (match file with
        | 0 => decide (line < 3072) | 1 => decide (line < 1024) | 2 => decide (line < 512) | _ => decide (line < 128))
  | 0x04 => decide (l < 2 ^ 48) && ((arr == 0 && decide (word < 160 * 512)) || arr == 1)
  | 0x05 => decide (l < 8)
  | 0x08 => decide (l < 65536)
  | 0x0F => decide (l < 2 ^ 48) && arr == 0
  | _ => l == 0

/-- Whether an ARM is taken (R505, R507). -/
def Dev.armTaken (d : Dev) (u : Fuses) : Bool :=
  let x := d.inj
  let det := x.target.toNat % 256
  let unit := x.target.toNat / 256 % 2 ^ 24
  d.injAuth != 0 && (d.start.state != .oasis || det == 0x0A) && (detPlace det unit).isSome
    && (match detCore det unit with | some c => !u.disabled.contains c | none => true)
    && locatorOk det unit x.locator.toNat
    && (match d.detPart det unit with | some p => d.partRuns p | none => true)

/-- ARM (R507). -/
def Dev.armInjection (d : Dev) (u : Fuses) : Dev :=
  let x := d.inj
  if d.armTaken u then { d with inj := { x with armed := some (x.target, x.locator, x.pattern), fired := false } }
  else { d with inj := { x with refused := min (x.refused + 1) 0xFFFF } }

def Dev.disarmInjection (d : Dev) : Dev := { d with inj := { d.inj with armed := none } }

/-- A write of INJ_CTL: its key, then its action (R506). -/
def Dev.injControl (d : Dev) (u : Fuses) (ctl : Nat) : Dev :=
  if ctl % 65536 ≠ 0x1A7E then d
  else if ctl / 65536 % 65536 = 1 then d.armInjection u
  else if ctl / 65536 % 65536 = 2 then d.disarmInjection
  else d

/-- ARM: a write of INJ_CTL with action ARM. -/
def doArm (u : Fuses) (ctl : DWord) (d : Dev) : Dev :=
  if d.barOpen 0 && ctl.toNat / 65536 % 65536 == 1 then d.injControl u ctl.toNat else d

def execArm (ctl : DWord) (s : State) : Host.Outcome State Fault Refusal := done s (doArm s.fuses ctl s.dev)

/-- DISARM. -/
def doDisarm (d : Dev) : Dev := if d.barOpen 0 then d.disarmInjection else d

def execDisarm (s : State) : Host.Outcome State Fault Refusal := done s (doDisarm s.dev)

/-! ## Event log (20 R563) -/

/-- A write of FLT_LOG_CONSUMED. -/
def Dev.logConsume (d : Dev) (v : DWord) : Dev :=
  if d.live && decide (v.toNat ≥ d.faults.logConsumed) && decide (v.toNat ≤ d.faults.logProduced) then
    { d with faults := { d.faults with logConsumed := v.toNat } }
  else d

/-- FLT_LOG_CONSUMED. -/
def doFltLogConsumed (v : DWord) (d : Dev) : Dev := if d.barOpen 0 then d.logConsume v else d

def execFltLogConsumed (v : DWord) (s : State) : Host.Outcome State Fault Refusal := done s (doFltLogConsumed v s.dev)

end Sys2Proof.Machine
end

