-- ==== Sys2Proof/Machine/Regs.lean ====
section
/-! DEFINITION. The registers of the host port: what each reads, and the writes that take effect (00 R28, 01 R42-R47,
02 R74, 08 R279, 09 R304, 10 R327, 11 R336, R367, 12 R387, 13 R398-R401, 14 R415, R425, 15 R464, 16 R488, 17 R504,
R506, 18 R531, 19 R554, 20 R563, R564). A register is named by its offset, a multiple of 8; registers of 4 bytes that
share 8 bytes are read together. -/

namespace Sys2Proof.Machine

open Sys2Proof

/-- Two registers of 4 bytes in 8. -/
def pair32 (lo hi : Nat) : Nat := lo % 2 ^ 32 + (hi % 2 ^ 32) <<< 32

/-- Outside oasis mode and not stopped (R488, R554, R563). [DEDUCED, log 31] -/
def Dev.shown (d : Dev) : Bool := d.start.state != .oasis && !d.faults.stopped

/-! ## CFG_ -/

/-- CFG_CORE_GOOD_d_w (01 R47). -/
def coreGood (u : Fuses) (die w : Nat) : Nat :=
  (List.range 32).foldl (fun n i => n + bitIf (!u.disabled.contains (die, 32 * w + i)) i) 0

/-- CFG_LODE_PARTITION (01 R46). -/
def Dev.lodePartition (d : Dev) : Nat :=
  (List.range 4).foldl (fun n k => n + ((d.partOfLode k).getD 0) <<< (2 * k)) 0 + ((d.conf.parts.filter (fun x => x.isSome)).length) <<< 8

/-- CFG_CACHE_QUOTA_p, CFG_PIN_LINES_p, CFG_SUMP_AREA_p, CFG_SUMP_OPEN_p (08 R279, 09 R304). -/
def Dev.cacheQuota (d : Dev) (p : Nat) : Nat :=
  match d.pconf p with | some c => c.replicaWays + c.pinWays <<< 4 + 2 ^ 8 | none => 0
def Dev.pinLinesOf (d : Dev) (p : Nat) : Nat :=
  (d.slices.filter (fun x => d.partOfSlice x.1 == some p)).foldl (fun n x => n + (x.2.ways.filter (fun w => w.2.pinned)).length) 0
def Dev.sumpArea (d : Dev) (p : Nat) : Nat :=
  match d.pconf p with | some c => (d.spillRegion p (32 * c.first)).2 + 2 ^ 12 | none => 0
def Dev.sumpOpen (d : Dev) (p : Nat) : Nat :=
  (d.slices.filter (fun x => d.partOfSlice x.1 == some p)).foldl (fun n x => n + x.2.slots.length + x.2.spilled.length) 0

/-- CFG_MEM_SCRUB (10 R327): passes that every channel has completed, and the lowest line of the channels that are in the
pass after those. [DEDUCED, log 31] -/
def Dev.scrubWord (d : Dev) : Nat :=
  let xs := (List.range 768).map (fun c => d.chan c)
  let pass := xs.foldl (fun n x => min n x.scrubPass) (2 ^ 32 - 1)
  let line := (xs.filter (fun x => x.scrubPass == pass)).foldl (fun n x => min n x.scrubLine) (2 ^ 24 - 1)
  pass + line <<< 32

/-- CFG_MEM_CH_c and CFG_MEM_CH_STAT_c (10 R327). -/
def Chan.word (c : Chan) : Nat := c.accesses % 2 ^ 48 + (min c.corrected 0xFFFF) <<< 48
def Chan.stat (c : Chan) : Nat := c.lastCorr % 2 ^ 26 + (c.refresh % 4) <<< 26 + (min c.recalLate 0xFFFF) <<< 32

/-- Free task-timer slots of a partition (11 R367). -/
def Dev.timersFree (d : Dev) (p : Nat) : Nat :=
  if (d.pconf p).isSome then 8192 - (d.tasks.filter (fun t => t.timer.isSome && d.partOfQueue t.q == some p)).length else 0

def PartState.code : PartState → Nat
  | .absent => 0 | .running => 1 | .containing => 2 | .restarting => 3 | .down => 4

/-- CFG_PART_STATUS_p (12 R387). -/
def Part.word (x : Part) : Nat := x.state.code + x.cause <<< 16 + x.losses <<< 32

def InstState.code : InstState → Nat
  | .absent => 0 | .running => 1 | .resetting => 2 | .freezing => 3 | .frozen => 4 | .saving => 5 | .saved => 6 | .restoring => 7

/-- CFG_INST_STATE_i and CFG_INST_MEM_i (14 R415). -/
def Inst.word (x : Inst) : Nat := x.state.code + x.lastRc <<< 16 + x.resets <<< 32
def Dev.instMem (d : Dev) (i : Nat) : Nat := match d.slot i with | some s => s.base / 2 ^ 30 + s.sizeGib <<< 32 | none => 0

/-- The CFG_ block. -/
def Dev.cfgReg (d : Dev) (u : Fuses) (off : Nat) : Nat :=
  let two := fun (base : Nat) (f : Nat → Nat) => let k := (off - base) / 4; pair32 (f k) (f (k + 1))
  if off = 0 then gradeWord u
  else if off = 0x8 then pair32 u.hubStepping u.baseStepping
  else if off = 0x10 then d.start.slp
  else if off = 0x18 then d.lodePartition
  else if 0x40 ≤ off ∧ off < 0x50 then two 0x40 d.cacheQuota
  else if 0x50 ≤ off ∧ off < 0x60 then two 0x50 d.pinLinesOf
  else if 0x60 ≤ off ∧ off < 0x70 then two 0x60 d.sumpArea
  else if 0x70 ≤ off ∧ off < 0x80 then two 0x70 d.sumpOpen
  else if 0x80 ≤ off ∧ off < 0xA0 then (d.part ((off - 0x80) / 8)).spills
  else if off = 0xC0 then d.conf.rate % 4 + bitIf (d.conf.refreshFloor == 1) 2 + bitIf d.conf.scrub12 3
  else if off = 0xC8 then (List.range 768).foldl (fun n c => n + (d.chan c).corrected) 0
  else if off = 0xD0 then d.scrubWord
  else if off = 0xE0 then d.conf.timeoutLimit % 2 ^ 26
  else if 0xE8 ≤ off ∧ off < 0xF8 then two 0xE8 d.timersFree
  else if 0x100 ≤ off ∧ off < 0x200 then
    let w := (off - 0x100) % 0x20 / 4
    let f := fun (k : Nat) => if k < 5 then coreGood u ((off - 0x100) / 0x20) k else 0
    pair32 (f w) (f (w + 1))
  else if 0x200 ≤ off ∧ off < 0x240 then
    let x := d.part ((off - 0x200) / 16)
    if off % 16 = 0 then x.word else x.lossTime
  else if 0x1000 ≤ off ∧ off < 0x4000 then
    let c := d.chan ((off - 0x1000) / 16)
    if d.start.state = .oasis then 0 else if off % 16 = 0 then c.word else c.stat
  else if 0x4000 ≤ off ∧ off < 0x6000 then
    let i := (off - 0x4000) / 0x20
    match off % 0x20 with
    | 0x00 => (d.inst i).word
    | 0x08 => d.instMem i
    | 0x10 => (d.inst i).s2root % 2 ^ 52
    | _ => 0
  else if 0x8000 ≤ off ∧ off < 0xA000 then
    let die := (off - 0x8000) / 0x400
    let f := fun (c : Nat) => (d.core (coreKey die c)).issued
    let c := (off - 0x8000) % 0x400 / 4
    pair32 (f c) (f (c + 1))
  else 0

/-! ## HUB_ -/

def StartState.code : StartState → Nat
  | .idle => 0 | .starting => 1 | .ready => 2 | .retryWait => 3 | .oasis => 4

/-- HUB_START_STATUS (02 R74). -/
def Dev.startStatus (d : Dev) : Nat :=
  d.start.phase % 16 + d.start.state.code <<< 4 + (d.failures % 256) <<< 8 + (if d.start.state = .ready then 0 else d.start.reason % 2 ^ 16) <<< 16

def PortState.code : PortState → Nat
  | .disabled => 0 | .training => 1 | .up => 2 | .mismatch => 3 | .down => 4

/-- The code of a number of lanes in HUB_SEIF_PORT_n (15 R464). -/
def widthCode (n : Nat) : Nat := match n with | 2 => 1 | 4 => 2 | 8 => 3 | _ => 0

/-- HUB_SEIF_PORT_n. -/
def Port.word (x : Port) : Nat :=
  x.state.code + widthCode (laneCount x.lanes) <<< 3 + x.lanes.toNat <<< 8 + (x.peerModule % 2 ^ 12) <<< 16 + (x.peerPort % 16) <<< 28
    + (min x.retrains 0xFFFF) <<< 32

/-- The HUB_ block. -/
def Dev.hubReg (d : Dev) (u : Fuses) (off : Nat) : Nat :=
  let oasis : Bool := d.start.state == .oasis
  if off = 0 then d.startStatus
  else if off = 0x10 then d.conf.imageId.toNat
  else if off = 0x20 then d.sealWord u
  else if off = 0x28 then pair32 d.start.version u.counter
  else if off = 0x30 then u.serial.toNat
  else if 0x40 ≤ off ∧ off < 0x80 then (match u.ownerDigest with | some x => bytesAt x.toNat (off - 0x40) 8 | none => 0)
  else if oasis then 0
  else if off = 0x1000 then d.conf.moduleId % 2 ^ 12 + (List.range 16).foldl (fun n k => n + bitIf (d.portEnabled k) (12 + k)) 0
  else if 0x1100 ≤ off ∧ off < 0x1300 then
    let x := d.port ((off - 0x1100) / 0x20)
    match off % 0x20 with
    | 0x00 => x.word
    | 0x08 => x.resent
    | 0x10 => pair32 x.hopDrops x.misroutes
    | _ => x.wait
  else 0

/-! ## HOST_ -/

/-- HOST_LINK_STATUS (13 R399). -/
def Dev.linkStatus (d : Dev) : Nat :=
  let x := d.host
  let up : Bool := d.ioUp
  (if up then x.modules % 16 + (x.rate % 4) <<< 4 + bitIf true 6 + bitIf (d.start.state == .ready) 7
      + (List.range 4).foldl (fun n p => n + bitIf (d.agentOn p) (8 + p)) 0 else 0)
    + (min x.retrains 0xFFFF) <<< 16

/-- The HOST_ block of physical function 0. -/
def Dev.hostReg (d : Dev) (off : Nat) : Nat :=
  match off with
  | 0x00 => d.linkStatus
  | 0x08 => d.host.replay
  | 0x10 => d.host.cacheId % 16
  | 0x18 => pair32 d.host.dmwrAborted d.host.dmwrDropped
  | 0x20 => d.host.memDiscard
  | 0x28 => d.time % 2 ^ 64
  | _ => 0

/-! ## PWR_ -/

/-- The least pace of a half at a core rail's voltage and a temperature, in M slots/s (16 R468, R469). [DESIGN CHOICE, log 40] -/
def minPace (mv tj : Nat) : Nat :=
  let at65 := if mv < 550 then 0 else if mv ≤ 700 then 10700 + 58 * (mv - 550) else if mv ≤ 750 then 19400 + 42 * (mv - 700) else 21500 + 36 * (mv - 750)
  at65 * (10520 - 8 * tj) / 100000

/-- The hottest of some monitors. -/
def Dev.hottest (d : Dev) (first count : Nat) : Nat :=
  (List.range count).foldl (fun n k => max n (sget 0 d.power.temps (first + k))) 0

/-- The pace of a core rail's half. [DESIGN CHOICE, log 40] -/
def Dev.pace (d : Dev) (x : Nat) : Nat :=
  let mv := d.railMv x
  let tj := d.hottest (20 * (x / 2) + 10 * (x % 2)) 10
  if mv < 550 then 0 else (minPace mv tj + Config.paceMargin x mv tj) % 2 ^ 12

/-- PWR_DIE_d and PWR_DIE_T_d (16 R488). -/
def Dev.dieWord (d : Dev) (k : Nat) : Nat :=
  d.railMv (2 * k) + d.railMv (2 * k + 1) <<< 16 + d.pace (2 * k) <<< 32 + d.pace (2 * k + 1) <<< 48
def Dev.tjCompute (d : Dev) (k : Nat) : Nat := min (d.hottest (20 * k) 20) 255
def Dev.tjBase (d : Dev) (k : Nat) : Nat := min (d.hottest (160 + 12 * k) 12) 255
def Dev.dieTemps (d : Dev) (k : Nat) : Nat :=
  d.tjCompute k + d.tjBase k <<< 8 + d.railReason (2 * k) <<< 16 + d.railReason (2 * k + 1) <<< 20

/-- PWR_PART_p. -/
def Dev.partPower (d : Dev) (p : Nat) : Nat :=
  match d.pconf p with
  | none => 0
  | some c => c.share % 2 ^ 16 + (d.conf.ceil.getD p 0 % 2 ^ 10) <<< 16 + (d.limitOf p % 2 ^ 16) <<< 32 + (d.power.partW.getD p 0 % 2 ^ 16) <<< 48

/-- The PWR_ block: four registers work in every state (16 R488). -/
def Dev.pwrReg (d : Dev) (off : Nat) : Nat :=
  let w := d.power
  if off = 0 then w.inputMv % 2 ^ 16 + (w.inputW % 2 ^ 16) <<< 16 + (w.inputDa % 2 ^ 12) <<< 32
  else if off = 0x18 then d.stage + (w.lowest % 2 ^ 16) <<< 16 + w.entries <<< 32
  else if off = 0x300 then w.stopCause + w.tjTrip <<< 8 + w.glitches <<< 16
  else if off = 0x308 then w.stopTime % 2 ^ 64
  else if !d.shown then 0
  else if off = 0x8 then w.budget % 2 ^ 16 + (w.stored % 2 ^ 16) <<< 16
  else if off = 0x10 then d.conf.bmin % 2 ^ 16 + (d.conf.bmax % 2 ^ 16) <<< 16 + (d.conf.tj % 2 ^ 8) <<< 32 + (d.conf.coreCap % 2 ^ 9) <<< 40
    + (d.conf.baseCeil % 2 ^ 10) <<< 49
  else if 0x20 ≤ off ∧ off < 0x40 then d.partPower ((off - 0x20) / 8)
  else if 0x100 ≤ off ∧ off < 0x180 then
    let k := (off - 0x100) / 16
    if off % 16 = 0 then d.dieWord k else d.dieTemps k
  else if 0x200 ≤ off ∧ off < 0x300 then sget 0 w.thr ((off - 0x200) / 8)
  else 0

/-! ## FLT_, INJ_, LDG_ -/

/-- FLT_SUMMARY (17 R504). -/
def Dev.fltSummary (d : Dev) : Nat :=
  bitIf d.faults.faultN 0 + bitIf d.faults.hubFault 1
    + (List.range 4).foldl (fun n p => n + bitIf ((d.part p).state != .absent && (d.part p).state != .running) (2 + p)) 0
    + (min d.faults.unwritten 0xFFFF) <<< 16

/-- The FLT_ block. -/
def Dev.fltReg (d : Dev) (off : Nat) : Nat :=
  let f := d.faults
  if off = 0 then d.fltSummary
  else if off = 0x8 then f.recentCount % 2 ^ 64
  else if 0x108 ≤ off ∧ off ≤ 0x180 then
    let c := (off - 0x100) / 8
    pair32 (sget 0 f.masked c) (sget 0 f.detected c)
  else if 0x1000 ≤ off ∧ off < 0x1200 then
    (match sfind f.recent ((off - 0x1000) / 0x20) with | some e => bytesAt e.bytes (off % 0x20) 8 | none => 0)
  else if !d.shown then 0
  else match off with
    | 0x10 => d.conf.eventLog.base / 2 ^ 21
    | 0x18 => f.logProduced
    | 0x20 => f.logConsumed
    | 0x28 => f.overwrites
    | _ => 0

/-- The INJ_ block (17 R506). -/
def Dev.injReg (d : Dev) (off : Nat) : Nat :=
  let x := d.inj
  match off with
  | 0x00 => d.injAuth + bitIf x.armed.isSome 2 + bitIf x.fired 3 + (min x.refused 0xFFFF) <<< 16 + (x.count % 2 ^ 32) <<< 32
  | 0x08 => x.target.toNat
  | 0x10 => x.locator.toNat
  | 0x18 => x.pattern.toNat
  | 0x28 => x.lastTime % 2 ^ 64
  | _ => 0

/-- The LDG_ block (19 R554). -/
def Dev.ldgReg (d : Dev) (off : Nat) : Nat :=
  let g := d.ledger
  if off = 0 then (if !g.running then 0 else if g.waiting.isEmpty then 1 else 2) + bitIf g.unsigned 2 + bitIf g.suspect 3 + (min g.pagesLost 0xFFFF) <<< 16
  else if !d.shown then 0
  else match off with
    | 0x08 => d.conf.ledger.base / 2 ^ 21 + (d.pageSlots % 2 ^ 16) <<< 32
    | 0x10 => g.produced
    | 0x18 => g.consumed
    | 0x20 => pair32 g.page.tickets.length g.page.ticks
    | 0x28 => g.energy
    | _ => 0

/-! ## MBX_ -/

/-- One mailbox page from the side that sends `tx` and receives `rx` (14 R425). -/
def Dev.mbxReg (d : Dev) (tx : Nat) (rx : Option Nat) (off : Nat) : Nat :=
  let r : Option MailMsg := rx.bind (fun n => (d.mailbox n).msgs.head?)
  if off = 0x10 then 16 - (d.mailbox tx).msgs.length
  else if 0x80 ≤ off ∧ off < 0x100 then (d.mailbox tx).ack ((off - 0x80) / 8)
  else match off, rx, r with
    | 0x200, some n, _ => (d.mailbox n).msgs.length
    | 0x208, _, some m => m.addr.toNat
    | 0x210, _, some m => m.bytes / 2 ^ 64
    | _, _, _ => 0

/-- The MBX_ block: tenant pairs read 0 in oasis mode (13 R398). -/
def Dev.managerMbx (d : Dev) (off : Nat) : Nat :=
  if 0x080000 ≤ off ∧ off < 0x081000 then d.mbxReg mbForeman none (off - 0x080000)
  else if 0x081000 ≤ off ∧ off < 0x082000 then d.mbxReg mbSecure none (off - 0x081000)
  else if 0x0C0000 ≤ off ∧ off < 0x100000 then
    let i := (off - 0x0C0000) / 0x400
    if d.start.state = .oasis then 0 else d.mbxReg (mbToTenant i) (some (mbToManager i)) ((off - 0x0C0000) % 0x400)
  else 0

/-! ## BARs -/

/-- Physical function 0's BAR0 (13 R398). `free` numbers a free value: the CXL component registers have a layout that
the spec does not give. -/
def Dev.bar0Reg (d : Dev) (u : Fuses) (free off : Nat) : Nat :=
  let o := off % 0x10000
  match off / 0x10000 with
  | 0 => d.hostReg o
  | 1 => d.hubReg u o
  | 2 => d.cfgReg u o
  | 3 => d.pwrReg o
  | 4 => d.fltReg o
  | 5 => d.injReg o
  | 6 => d.ldgReg o
  | 0x10 => Config.cxlRegister free o % 2 ^ 64
  | _ => d.managerMbx off

/-- HOST_VF_INFO and the block bits of a virtual function (13 R400). -/
def Dev.vfInfo (d : Dev) (i : Nat) : Nat :=
  i % 256 + (match d.slot i with
    | some _ => 2 ^ 8 + ((d.partOfLode (i / 64)).getD 0) <<< 9 + ((d.blocksOf i).length) <<< 11
    | none => 0)
def Dev.vfBlocks (d : Dev) (i first : Nat) : Nat :=
  (d.blocksOf i).foldl (fun n b => if first ≤ b ∧ b < first + 64 then n + 2 ^ (b - first) else n) 0

/-- BAR0 of virtual function k (13 R400). -/
def Dev.vfReg (d : Dev) (k off : Nat) : Nat :=
  let i := k - 1
  match off with
  | 0x00 => d.vfInfo i
  | 0x08 => d.vfBlocks i (128 * (i / 64))
  | 0x10 => d.vfBlocks i (128 * (i / 64) + 64)
  | 0x28 => d.time % 2 ^ 64
  | _ => if 0x1000 ≤ off ∧ off < 0x1400 ∧ d.start.state ≠ .oasis then d.mbxReg (mbToManager i) (some (mbToTenant i)) (off - 0x1000) else 0

/-- The queue and register of an offset in doorbell pages: the blocks in the order of the pages (13 R401). -/
def bellPlace (blocks : List Nat) (off : Nat) : Option (Nat × Nat) :=
  (blocks[off / 4096]?).map (fun b => (bellQueue b (off % 4096), bellReg (off % 4096)))

/-- An access that takes effect: 4 or 8 bytes, naturally aligned (13 R399). [DEDUCED, log 31] -/
def widthOk (off size : Nat) : Bool := (size == 4 || size == 8) && off % size == 0

/-- What 4 or 8 bytes at an offset read, from the 8 bytes that hold them. -/
def partOf (v off size : Nat) : Nat := if size = 8 then v else v / 2 ^ (8 * (off % 8)) % 2 ^ 32

/-- A read that reaches a register space: 0 where it does not take effect. -/
def Dev.readReg (d : Dev) (u : Fuses) (free : Nat) (space : RegSpace) (off size : Nat) : Nat :=
  if !widthOk off size then 0
  else
    let o := off / 8 * 8
    match space with
    | .pf0Bar0 => partOf (d.bar0Reg u free o) off size
    | .vfBar0 k => partOf (d.vfReg k o) off size
    | .pf0Bar2 => if size = 8 then (match bellPlace (List.range 512) off with | some (q, r) => d.bellRead q r | none => 0) else 0
    | .vfBar2 k => if size = 8 then (match bellPlace (d.blocksOf (k - 1)) off with | some (q, r) => d.bellRead q r | none => 0) else 0
    | _ => 0

/-! ## Writes -/

/-- The 8 bytes of a register after a write of some of them. -/
def merged (old v off size : Nat) : Nat := if size = 8 then v % 2 ^ 64 else putBytes old (off % 8) 4 v

/-- HOST_CACHEID: ignored when the base would pass 15 or an agent is enabled (13 R399). -/
def Dev.writeCacheId (d : Dev) (v : Nat) : Dev :=
  let top := (List.range 4).foldl (fun n p => if (d.pconf p).isSome then p else n) 0
  if v % 16 + top > 15 || (List.range 4).any (fun p => d.agentOn p) then d
  else { d with host := { d.host with cacheId := v % 16, cacheIdWritten := true } }

/-- A write to physical function 0's BAR0 that takes effect. What has a row of its own in the table acts as that row;
action START of HUB_START_CTL is a start, which the caller begins. -/
def Dev.writeBar0 (d : Dev) (u : Fuses) (off size v : Nat) : Dev :=
  let o := off / 8 * 8
  let low : Bool := off % 8 == 0
  let into := fun (old : Nat) => merged old v off size
  if o = 0x10 then (if low then d.writeCacheId (v % 2 ^ 32) else d)
  else if o = 0x10008 then (if low ∧ v % 65536 = startKey ∧ v / 65536 % 65536 = 1 then d.clearRecord else d)
  else if o = 0x40020 then d.logConsume (BitVec.ofNat 64 (into d.faults.logConsumed))
  else if o = 0x50008 then { d with inj := { d.inj with target := BitVec.ofNat 64 ((into d.inj.target.toNat) % 2 ^ 32) } }
  else if o = 0x50010 then { d with inj := { d.inj with locator := BitVec.ofNat 64 (into d.inj.locator.toNat) } }
  else if o = 0x50018 then { d with inj := { d.inj with pattern := BitVec.ofNat 64 (into d.inj.pattern.toNat) } }
  else if o = 0x50020 then (if low then d.injControl u v else d)
  else if o = 0x60018 then d.ldgConsume (BitVec.ofNat 64 (into d.ledger.consumed))
  else if 0x0C0000 ≤ o ∧ o < 0x100000 ∧ o % 0x400 = 0x218 ∧ low then doMbxRxAck (.toManager ((o - 0x0C0000) / 0x400)) (BitVec.ofNat 32 v) d
  else d

/-- The function of a configuration space, with a field of it written. -/
def Dev.setFnCfg (d : Dev) (k : Nat) (x : FnCfg) : Dev := { d with host := { d.host with cfg := sset {} d.host.cfg k x } }

/-- A write to configuration space: Command, and for physical function 0 the power-management state, the SR-IOV control
and the CXL control. Places: Command at 0x04; PMCSR, SR-IOV Control and CXL Control at offsets that the model chooses
(DESIGN CHOICE). A virtual function in reset answers with a retry (13 R397). [DESIGN CHOICE, log 30; DEDUCED, log 31] -/
def Dev.writeCfg (d : Dev) (k off v : Nat) : Dev :=
  let x := d.fnCfg k
  if k ≥ 1 ∧ (d.inst (k - 1)).flr = true then d.complete .retry
  else match off with
    | 0x04 => d.setFnCfg k { x with memEnable := v.testBit 1, busMaster := v.testBit 2 }
    | 0x44 => if k = 0 then d.setFnCfg 0 { x with d3hot := v % 4 == 3 } else d
    | 0x188 => if k = 0 then d.setFnCfg 0 { x with vfEnable := v.testBit 0 } else d
    | 0x20C => if k = 0 then d.setFnCfg 0 { x with cacheEnable := v.testBit 0 } else d
    | _ => d

/-- REGISTER_WRITE (00 R28): a write that reaches a register space. -/
def doRegisterWrite (space : RegSpace) (off size : Nat) (v : DWord) (u : Fuses) (d : Dev) : Dev :=
  match space with
  | .pf0Cfg => if d.ioUp && d.fnThere 0 then d.writeCfg 0 off v.toNat else d
  | .vfCfg k => if d.ioUp && d.fnThere k && decide (k ≥ 1) then d.writeCfg k off v.toNat else d
  | .pf0Bar0 => if d.barOpen 0 && widthOk off size then d.writeBar0 u off size v.toNat else d
  | .vfBar0 k =>
    if d.barOpen k && decide (k ≥ 1) && off == 0x1218 && widthOk off size then doMbxRxAck (.toTenant (k - 1)) (v.setWidth 32) d else d
  | .pf0Bar2 =>
    (match bellPlace (List.range 512) off with
     | some (q, r) => (match d.bellTarget .pf0 (off / 4096) (q % 64) with
       | some q => if size = 8 ∧ off % 8 = 0 then d.bellWrite q r v.toNat else d
       | none => d)
     | none => d)
  | .vfBar2 k =>
    (match bellPlace (d.blocksOf (k - 1)) off with
     | some (q, r) => (match d.bellTarget (.vf k) (off / 4096) (q % 64) with
       | some q => if size = 8 ∧ off % 8 = 0 then d.bellWrite q r v.toNat else d
       | none => d)
     | none => d)

def execRegisterWrite (space : RegSpace) (off size : Nat) (v : DWord) (s : State) : Host.Outcome State Fault Refusal :=
  done s (doRegisterWrite space off size v s.fuses s.dev)

/-- HOST_CACHEID_WRITE. -/
def doHostCacheidWrite (v : Word) (d : Dev) : Dev := if d.barOpen 0 then d.writeCacheId v.toNat else d

def execHostCacheidWrite (v : Word) (s : State) : Host.Outcome State Fault Refusal := done s (doHostCacheidWrite v s.dev)

/-- HDM_DECODER_COMMIT: the conditions of 13 R407; a base has 256 MiB granules. A decoder that is committed stays as it
is (DESIGN CHOICE). [DESIGN CHOICE, log 30] -/
def doHdmDecoderCommit (n base size ways : Nat) (d : Dev) : Dev :=
  if !d.barOpen 0 || decide (n ≥ 4) then d
  else
    let x := sget {} d.host.decoders n
    let ok : Bool := match d.pconf n with
      | some c => size == c.size && ways == 1 && d.start.state == .ready
      | none => false
    if x.committed then d
    else { d with host := { d.host with decoders := sset {} d.host.decoders n { base := base / 2 ^ 28 * 2 ^ 28, size := size, committed := ok, error := !ok } } }

def execHdmDecoderCommit (n base size ways gran : Nat) (s : State) : Host.Outcome State Fault Refusal :=
  let _ := gran
  done s (doHdmDecoderCommit n base size ways s.dev)

/-! ## Link (13 R391-R394) -/

/-- The modules that a link uses of those that trained (13 R391). -/
def linkModules (trained : Nat) : Nat :=
  let t := trained % 16
  if t = 15 then 15 else if t % 4 = 3 then 3 else if t / 4 = 3 then 12
  else if t.testBit 0 then 1 else if t.testBit 1 then 2 else if t.testBit 2 then 4 else if t.testBit 3 then 8 else 0

def moduleCount (m : Nat) : Nat := ((List.range 4).filter (fun k => m.testBit k)).length

/-- The port is ready to train: its rails are on and RESET_N is released (13 R392 step 1). -/
def Dev.portPowered (d : Dev) : Bool := d.power.rails.mgmt && d.power.rails.ucie && d.power.pins.resetN && decide (d.stage < 5)

/-- SIDEBAND_MESSAGE: initialisation, then the parameter exchange (13 R392 step 2). -/
def doSidebandMessage (m : Sideband) (d : Dev) : Dev :=
  if !d.portPowered then d
  else match m, d.host.link with
    | .initialise, .reset | .initialise, .down | .initialise, .ready => { d with host := { d.host with link := .sideband } }
    | .parameters, .sideband => { d with host := { d.host with link := .ready } }
    | _, _ => d

def execSidebandMessage (m : Sideband) (s : State) : Host.Outcome State Fault Refusal := done s (doSidebandMessage m s.dev)

/-- LINK_RETRAIN: the first training brings the link up; a retrain counts, and is logged when it lowers width or rate
(13 R392, R393). [DEDUCED, log 31] -/
def doLinkRetrain (modules rate : Nat) (d : Dev) : Dev :=
  let m := linkModules modules
  if !d.portPowered || m = 0 || rate = 0 || decide (rate > 3) then d
  else
    let up : Dev := { d with host := { d.host with link := .up, modules := m, rate := rate } }
    match d.host.link with
    | .ready => up
    | .up =>
      let e : Dev := { up with host := { up.host with retrains := min (d.host.retrains + 1) 0xFFFF } }
      if moduleCount m < moduleCount d.host.modules ∨ rate < d.host.rate then e.logEntry { time := d.time, kind := 6, location := 8 } else e
    | _ => d

def execLinkRetrain (modules rate : Nat) (s : State) : Host.Outcome State Fault Refusal := done s (doLinkRetrain modules rate s.dev)

/-- LINK_DOWN (13 R394). -/
def doLinkDown (d : Dev) : Dev := if d.host.link = .up then d.linkFalls else d

def execLinkDown (s : State) : Host.Outcome State Fault Refusal := done s (doLinkDown s.dev)

/-- HOT_RESET: the link is down, and every function's configuration space returns to its reset values (13 R394). [DEDUCED, log 31] -/
def doHotReset (d : Dev) : Dev :=
  if d.host.link = .up then
    let e := d.linkFalls
    { e with host := { e.host with cfg := [] } }
  else d

def execHotReset (s : State) : Host.Outcome State Fault Refusal := done s (doHotReset s.dev)

/-- FUNCTION_LEVEL_RESET: of physical function 0 its configuration space, of a virtual function its instance (13 R397). -/
def doFunctionLevelReset (fn : Nat) (d : Dev) : Dev :=
  if !(d.ioUp && d.fnThere fn) then d
  else if fn = 0 then d.setFnCfg 0 {}
  else d.resetFor (fn - 1)

def execFunctionLevelReset (fn : Nat) (s : State) : Host.Outcome State Fault Refusal := done s (doFunctionLevelReset fn s.dev)

end Sys2Proof.Machine
end

