-- ==== Sys2Proof/Machine/Manage.lean ====
section
/-! DEFINITION. The I3C target with MCTP, PLDM and SPDM: addressing, control, sensors, the budget effecter, firmware
update, attestation (20 R556-R560, 16 R471, 18 R518-R520). Answers keep their fields; the encodings are those of the DMTF
standards. -/

namespace Sys2Proof.Machine

open Sys2Proof

/-! ## I3C (R556) -/

/-- The target answers: the management rail is on and RESET_N is released. -/
def Dev.i3cUp (d : Dev) : Bool := d.mgmtOn && d.power.pins.resetN

/-- A request reaches the target once it has its dynamic address. [DEDUCED, log 56] -/
def Dev.asked (d : Dev) (f : Dev → Dev) : Dev := if d.i3cUp && d.mgmt.addr.isSome then f d else d

/-- An answer waits for a private read. [DEDUCED, log 56] -/
def Dev.reply (d : Dev) (r : Reply) : Dev := { d with mgmt := { d.mgmt with out := d.mgmt.out ++ [r] } }

/-- ENTDAA: a target without a dynamic address takes the one it is given. -/
def doEntdaa (addr : Nat) (d : Dev) : Dev :=
  if d.i3cUp && d.mgmt.addr.isNone then { d with mgmt := { d.mgmt with addr := some addr } } else d

def execEntdaa (addr : Nat) (s : State) : Host.Outcome State Fault Refusal := done s (doEntdaa addr s.dev)

/-- PRIVATE_READ: the oldest answer, or a NACK. -/
def doPrivateRead (d : Dev) : Dev :=
  d.asked (fun e => { e with mgmt := { e.mgmt with out := e.mgmt.out.drop 1, last := e.mgmt.out.head? } })

def execPrivateRead (s : State) : Host.Outcome State Fault Refusal := done s (doPrivateRead s.dev)

/-! ## MCTP control (R557) -/

/-- SET_ENDPOINT_ID: 0 and 0xFF are no endpoint's. [DEDUCED, log 56] -/
def doSetEndpointId (eid : Nat) (d : Dev) : Dev :=
  d.asked (fun e =>
    if eid = 0 ∨ eid ≥ 0xFF then e.reply (.done .invalidData)
    else ({ e with mgmt := { e.mgmt with eid := eid } } : Dev).reply (.eid eid))

def execSetEndpointId (eid : Nat) (s : State) : Host.Outcome State Fault Refusal := done s (doSetEndpointId eid s.dev)

/-- GET_ENDPOINT_ID. -/
def doGetEndpointId (d : Dev) : Dev := d.asked (fun e => e.reply (.eid e.mgmt.eid))

def execGetEndpointId (s : State) : Host.Outcome State Fault Refusal := done s (doGetEndpointId s.dev)

/-- GET_ENDPOINT_UUID. -/
def doGetEndpointUuid (d : Dev) : Dev := d.asked (fun e => e.reply (.uuid Config.uuid))

def execGetEndpointUuid (s : State) : Host.Outcome State Fault Refusal := done s (doGetEndpointUuid s.dev)

/-- Message types accepted: control, PLDM, SPDM. -/
def messageTypes : List Nat := [0x00, 0x01, 0x05]

/-- GET_MCTP_VERSION_SUPPORT: of a message type, or of the base specification (0xFF). -/
def doGetMctpVersionSupport (type : Nat) (d : Dev) : Dev :=
  d.asked (fun e => e.reply (if type = 0xFF ∨ messageTypes.contains type then .versions type (Config.mctpVersions type) else .done .unsupported))

def execGetMctpVersionSupport (type : Nat) (s : State) : Host.Outcome State Fault Refusal := done s (doGetMctpVersionSupport type s.dev)

/-- GET_MESSAGE_TYPE_SUPPORT. -/
def doGetMessageTypeSupport (d : Dev) : Dev := d.asked (fun e => e.reply (.types messageTypes))

def execGetMessageTypeSupport (s : State) : Host.Outcome State Fault Refusal := done s (doGetMessageTypeSupport s.dev)

/-! ## PLDM base (R558) -/

/-- GETTID. -/
def doGettid (d : Dev) : Dev := d.asked (fun e => e.reply (.tid Config.tid))

def execGettid (s : State) : Host.Outcome State Fault Refusal := done s (doGettid s.dev)

/-- The PLDM types. -/
def pldmTypes : List Nat := [0, 2, 5]

/-- GETPLDMVERSION. -/
def doGetpldmversion (type : Nat) (d : Dev) : Dev :=
  d.asked (fun e => e.reply (if pldmTypes.contains type then .versions type (Config.pldmVersions type) else .done .invalidData))

def execGetpldmversion (type : Nat) (s : State) : Host.Outcome State Fault Refusal := done s (doGetpldmversion type s.dev)

/-- GETPLDMTYPES. -/
def doGetpldmtypes (d : Dev) : Dev := d.asked (fun e => e.reply (.types pldmTypes))

def execGetpldmtypes (s : State) : Host.Outcome State Fault Refusal := done s (doGetpldmtypes s.dev)

/-- The commands of a type, by their codes in the standards (PRESUMED): base, platform monitoring, firmware update. [PRESUMED, log 57] -/
def pldmCommands (type : Nat) : List Nat :=
  match type with
  | 0 => [0x02, 0x03, 0x04, 0x05]
  | 2 => [0x11, 0x21, 0x31, 0x32, 0x50, 0x51]
  | 5 => [0x10, 0x13, 0x14, 0x15, 0x16, 0x17, 0x18, 0x1A]
  | _ => []

/-- GETPLDMCOMMANDS. -/
def doGetpldmcommands (type : Nat) (d : Dev) : Dev :=
  d.asked (fun e => e.reply (if pldmTypes.contains type then .commands type (pldmCommands type) else .done .invalidData))

def execGetpldmcommands (type : Nat) (s : State) : Host.Outcome State Fault Refusal := done s (doGetpldmcommands type s.dev)

/-! ## Sensors and the effecter (R559) -/

/-- Whether partition p has sensors: while no partition is formed every number counts. [DEDUCED, log 56] -/
def Dev.sensorPart (d : Dev) (p : Nat) : Bool := decide (p < 4) && (d.start.state != .ready || (d.pconf p).isSome)

/-- A reading of a source that works in every state, and of one that is unavailable in oasis mode and after a stop. -/
def always (v : Nat) : OpState × Nat := (.enabled, v)
def Dev.running (d : Dev) (v : Nat) : OpState × Nat := if d.live then (.enabled, v) else (.unavailable, 0)

/-- The reading of a numeric sensor; none for a number that is no sensor. -/
def Dev.numericSensor (d : Dev) (id : Nat) : Option (OpState × Nat) :=
  let w := d.power
  if id = 0x0001 then some (always (w.inputMv % 2 ^ 16))
  else if id = 0x0002 then some (always (w.inputW % 2 ^ 16))
  else if id = 0x0003 then some (always (w.inputDa % 2 ^ 12))
  else if 0x0010 ≤ id ∧ id < 0x0018 then some (d.running (d.tjCompute (id - 0x0010)))
  else if 0x0018 ≤ id ∧ id < 0x0020 then some (d.running (d.tjBase (id - 0x0018)))
  else if id = 0x0020 then some (always (min (d.hottest 256 8) 255))
  else if 0x0028 ≤ id ∧ id < 0x002C then (if d.sensorPart (id - 0x0028) then some (d.running (w.partW.getD (id - 0x0028) 0 % 2 ^ 16)) else none)
  else if id = 0x0030 then some (d.running (d.ledger.energy / 1000000 % 2 ^ 32))
  else none

/-- The reading of a state sensor. -/
def Dev.stateSensor (d : Dev) (id : Nat) : Option (OpState × Nat) :=
  if 0x0100 ≤ id ∧ id < 0x0104 then (if d.sensorPart (id - 0x0100) then some (always (d.part (id - 0x0100)).state.code) else none)
  else if id = 0x0108 then some (always (match d.sec.sealSt with | .sealed => 0 | .pending => 1 | .unsealed => 2))
  else if id = 0x0109 then some (always d.stage)
  else if id = 0x010A then some (always d.start.state.code)
  else if id = 0x010B then some (always (bitIf d.faults.faultN 0))
  else none

/-- The records of the repository, in the order of their handles from 1: kind (0 numeric sensor, 1 state sensor, 2
numeric effecter) and number. -/
def Dev.pdrs (d : Dev) : List (Nat × Nat) :=
  ((List.range 0x31).filter (fun id => (d.numericSensor id).isSome)).map (fun id => (0, id))
    ++ (((List.range 0x0C).map (fun k => 0x0100 + k)).filter (fun id => (d.stateSensor id).isSome)).map (fun id => (1, id))
    ++ [(2, 0x0001)]

/-- GETPDR: record handle 0 names the first record. -/
def doGetpdr (handle : Nat) (d : Dev) : Dev :=
  d.asked (fun e =>
    let k := if handle = 0 then 1 else handle
    let n := e.pdrs.length
    match e.pdrs[k - 1]? with
    | some (kind, id) => e.reply (.pdr k kind id (if k < n then k + 1 else 0))
    | none => e.reply (.done .invalidData))

def execGetpdr (handle : Nat) (s : State) : Host.Outcome State Fault Refusal := done s (doGetpdr handle s.dev)

/-- GETPDRREPOSITORYINFO. -/
def doGetpdrrepositoryinfo (d : Dev) : Dev := d.asked (fun e => e.reply (.pdrInfo e.pdrs.length))

def execGetpdrrepositoryinfo (s : State) : Host.Outcome State Fault Refusal := done s (doGetpdrrepositoryinfo s.dev)

/-- Answers a reading; a number that is no sensor is refused. -/
def Dev.replyReading (d : Dev) (r : Option (OpState × Nat)) : Dev :=
  match r with
  | some (op, v) => d.reply (.reading op v)
  | none => d.reply (.done .invalidData)

/-- GETSENSORREADING. -/
def doGetsensorreading (id : Nat) (d : Dev) : Dev := d.asked (fun e => e.replyReading (e.numericSensor id))

def execGetsensorreading (id : Nat) (s : State) : Host.Outcome State Fault Refusal := done s (doGetsensorreading id s.dev)

/-- GETSTATESENSORREADINGS. -/
def doGetstatesensorreadings (id : Nat) (d : Dev) : Dev := d.asked (fun e => e.replyReading (e.stateSensor id))

def execGetstatesensorreadings (id : Nat) (s : State) : Host.Outcome State Fault Refusal := done s (doGetstatesensorreadings id s.dev)

/-- The budget that the effecter will have: stored, of the next period, or in force. -/
def PowerSt.pending (w : PowerSt) : Nat := if w.stored ≠ 0 then w.stored else if w.next ≠ 0 then w.next else w.budget

/-- GETNUMERICEFFECTERVALUE. -/
def doGetnumericeffectervalue (id : Nat) (d : Dev) : Dev :=
  d.asked (fun e =>
    if id ≠ 0x0001 then e.reply (.done .invalidData)
    else e.reply (if e.live then .effecter .enabled e.power.pending e.power.budget else .effecter .unavailable 0 0))

def execGetnumericeffectervalue (id : Nat) (s : State) : Host.Outcome State Fault Refusal := done s (doGetnumericeffectervalue id s.dev)

/-- BUDGET_SET: SetNumericEffecterValue moves B from the next control period, or once the stage clears (16 R471, 02 R80,
R565). [DEDUCED, log 56] -/
def doBudgetSet (id value : Nat) (d : Dev) : Dev :=
  d.asked (fun e =>
    if id ≠ 0x0001 then e.reply (.done .invalidData)
    else if !e.live then e.reply (.done .notReady)
    else if value < e.conf.bmin ∨ value > e.conf.bmax then e.reply (.done .invalidData)
    else
      let w := e.power
      ({ e with power := if e.stage ≥ 2 then { w with stored := value } else { w with next := value } } : Dev).reply (.done .success))

def execBudgetSet (id value : Nat) (s : State) : Host.Outcome State Fault Refusal := done s (doBudgetSet id value s.dev)

/-! ## Firmware update (R560) -/

/-- Bytes that the image region holds, and those of one transfer. -/
def imageRegion : Nat := 0x07FF0000
def transferBytes : Nat := 1024
def componentId : Nat := 0x5A33

def Dev.setUpdate (d : Dev) (x : UpdateState) : Dev := { d with mgmt := { d.mgmt with update := x } }

/-- REQUESTUPDATE. -/
def doRequestupdate (d : Dev) : Dev :=
  d.asked (fun e => if e.mgmt.update = .idle then (e.setUpdate .learn).reply (.done .success) else e.reply (.done .alreadyInUpdateMode))

def execRequestupdate (s : State) : Host.Outcome State Fault Refusal := done s (doRequestupdate s.dev)

/-- PASSCOMPONENTTABLE: the one component, no larger than the image region; its comparison stamp is recorded by the agent
alone. [DEDUCED, log 56] -/
def doPasscomponenttable (id size : Nat) (d : Dev) : Dev :=
  d.asked (fun e => match e.mgmt.update with
    | .idle => e.reply (.done .notInUpdateMode)
    | .learn => if id ≠ componentId ∨ size > imageRegion then e.reply (.done .cannotUpdate) else (e.setUpdate .ready).reply (.done .success)
    | _ => e.reply (.done .invalidState))

def execPasscomponenttable (id size stamp : Nat) (s : State) : Host.Outcome State Fault Refusal :=
  let _ := stamp
  done s (doPasscomponenttable id size s.dev)

/-- Asks for the next piece. -/
def Dev.wantPiece (d : Dev) (size got : Nat) : Dev := d.reply (.wantData got (min transferBytes (size - got)))

/-- UPDATECOMPONENT: the image region is erased, and the first piece is asked for. -/
def doUpdatecomponent (size : Nat) (d : Dev) : Dev :=
  d.asked (fun e => match e.mgmt.update with
    | .idle => e.reply (.done .notInUpdateMode)
    | .ready =>
      if size = 0 ∨ size > imageRegion then e.reply (.done .cannotUpdate)
      else (({ (e.setUpdate (.download size 0)) with flash := { e.flash with image := none } } : Dev).reply (.done .success)).wantPiece size 0
    | _ => e.reply (.done .invalidState))

def execUpdatecomponent (size : Nat) (s : State) : Host.Outcome State Fault Refusal := done s (doUpdatecomponent size s.dev)

/-- The whole image is in the flash: it is verified, and a good one gains an IMAGE_WRITTEN entry (R560, 02 R74). [DEDUCED, log 56] -/
def Dev.imageWritten (d : Dev) (u : Fuses) (im : Image) : Dev :=
  let d1 := ({ d with flash := { d.flash with image := some im } } : Dev).reply (.transferComplete true)
  if imageReason u im ≠ 0 then (d1.reply (.verifyComplete false)).setUpdate .idle
  else
    let named : Dev := { d1 with start := { d1.start with imageId := im.header.imageId, digest := im.digest } }
    let e := named.appendEntry .imageWritten 0 d1.startsSoFar 0
    (({ e with start := d1.start } : Dev).reply (.verifyComplete true)).reply .applyComplete |>.setUpdate .idle

/-- REQUESTFIRMWAREDATA: the answer to a RequestFirmwareData is written into the flash; `image` is what the bytes of all
the answers make. -/
def doRequestfirmwaredata (offset len : Nat) (image : Image) (last : Bool) (u : Fuses) (d : Dev) : Dev :=
  d.asked (fun e => match e.mgmt.update with
    | .download size got =>
      if offset ≠ got ∨ len ≠ min transferBytes (size - got) ∨ last ≠ decide (got + len = size) then e
      else if last then e.imageWritten u image
      else (e.setUpdate (.download size (got + len))).wantPiece size (got + len)
    | _ => e)

def execRequestfirmwaredata (offset len : Nat) (image : Image) (last : Bool) (s : State) : Host.Outcome State Fault Refusal :=
  done s (doRequestfirmwaredata offset len image last s.fuses s.dev)

/-- ACTIVATEFIRMWARE: a start from oasis mode where R74 permits it; while the SZ3 runs it changes nothing. [DEDUCED, log 56] -/
def doActivatefirmware (env : StartEnv) (u : Fuses) (d : Dev) : Dev :=
  d.asked (fun e =>
    if e.start.state ≠ .oasis then e.reply (.done .success)
    else if e.oasisStart then (e.beginStart u env).reply (.done .success)
    else e.reply (.done .invalidState))

def execActivatefirmware (env : StartEnv) (s : State) : Host.Outcome State Fault Refusal := done s (doActivatefirmware env s.fuses s.dev)

/-! ## SPDM (18 R518-R520) -/

/-- GET_VERSION: 1.3 only. -/
def doGetVersion (d : Dev) : Dev := d.asked (fun e => e.reply (.spdmVersion 1 3))

def execGetVersion (s : State) : Host.Outcome State Fault Refusal := done s (doGetVersion s.dev)

/-- GET_CAPABILITIES: CERT_CAP, CHAL_CAP, MEAS_CAP with signature, no MEAS_FRESH_CAP. -/
def doGetCapabilities (d : Dev) : Dev := d.asked (fun e => e.reply (.capabilities true true true false))

def execGetCapabilities (s : State) : Host.Outcome State Fault Refusal := done s (doGetCapabilities s.dev)

/-- NEGOTIATE_ALGORITHMS: of what the requester offers, bit 0 TPM_ALG_RSAPSS_4096 and bit 1 TPM_ALG_SHA_512 are selected. -/
def doNegotiateAlgorithms (offered : Nat) (d : Dev) : Dev := d.asked (fun e => e.reply (.algorithms (offered % 2) (offered / 2 % 2)))

def execNegotiateAlgorithms (offered : Nat) (s : State) : Host.Outcome State Fault Refusal := done s (doNegotiateAlgorithms offered s.dev)

/-- The digest of the certificate chain. -/
def chainDigest : Digest := sha512 Config.certChain

/-- GET_DIGESTS: slot 0. -/
def doGetDigests (d : Dev) : Dev := d.asked (fun e => e.reply (.digests 1 chainDigest))

def execGetDigests (s : State) : Host.Outcome State Fault Refusal := done s (doGetDigests s.dev)

/-- GET_CERTIFICATE: a portion of the chain of slot 0. -/
def doGetCertificate (slot offset len : Nat) (d : Dev) : Dev :=
  d.asked (fun e =>
    if slot ≠ 0 ∨ offset ≥ Config.certChain.length then e.reply (.spdmError .invalidRequest)
    else
      let rest := Config.certChain.drop offset
      e.reply (.certificate slot offset (rest.take len) (rest.length - len)))

def execGetCertificate (slot offset len : Nat) (s : State) : Host.Outcome State Fault Refusal := done s (doGetCertificate slot offset len s.dev)

/-- CHALLENGE: signed with the identity key; an error while the key is unavailable (R520). [DEDUCED, log 56] -/
def doChallenge (slot : Nat) (d : Dev) : Dev :=
  d.asked (fun e =>
    if slot ≠ 0 then e.reply (.spdmError .invalidRequest)
    else if !e.keyAvail then e.reply (.spdmError .unspecified)
    else
      let (n, e1) := e.takeFresh
      e1.reply (.challengeAuth slot chainDigest 0 (Config.signature n).toNat))

def execChallenge (slot : Nat) (nonce : BitVec 256) (s : State) : Host.Outcome State Fault Refusal :=
  let _ := nonce
  done s (doChallenge slot s.dev)

/-- GET_MEASUREMENTS: operation 0 asks for their number, 0xFF for all, 1-9 for one; a signature needs the key. [DEDUCED, log 56] -/
def doGetMeasurements (op : Nat) (sign : Bool) (d : Dev) : Dev :=
  d.asked (fun e =>
    if sign && !e.keyAvail then e.reply (.spdmError .unspecified)
    else
      let all := (List.range 9).map (fun k => (k + 1, e.sec.meas.m.getD k 0))
      if op ≠ 0 ∧ op ≠ 0xFF ∧ op > 9 then e.reply (.spdmError .invalidRequest)
      else
        let some' := if op = 0 then [] else if op = 0xFF then all else all.filter (fun x => x.1 == op)
        if sign then
          let (n, e1) := e.takeFresh
          e1.reply (.measurements some' 9 (some (Config.signature n).toNat))
        else e.reply (.measurements some' 9 none))

def execGetMeasurements (op : Nat) (nonce : BitVec 256) (sign : Bool) (s : State) : Host.Outcome State Fault Refusal :=
  let _ := nonce
  done s (doGetMeasurements op sign s.dev)

end Sys2Proof.Machine
end

