-- ==== Sys2Proof/Machine/Tap.lean ====
section
/-! DEFINITION. The test access port (18 R522). -/

namespace Sys2Proof.Machine

open Sys2Proof

/-- The instruction codes. -/
def irExtest : BitVec 8 := 0x00
def irSample : BitVec 8 := 0x01
def irIdcode : BitVec 8 := 0x02
def irDap : BitVec 8 := 0x10
def irBypass : BitVec 8 := 0xFF

/-- What IDCODE reads. -/
def idcodeValue : BitVec 128 := 0x15A33E71

def Dev.setTap (d : Dev) (x : TapSt) : Dev := { d with sec := { d.sec with tap := x } }

/-- The DAP is open: UNSEALED. -/
def Dev.tapOpen (d : Dev) : Bool := d.sec.sealSt == .unsealed

/-- The boundary scan is open: UNSEALED, or RESET_N asserted. -/
def Dev.scanOpen (d : Dev) : Bool := d.tapOpen || !d.power.pins.resetN

/-- BYPASS: one bit, captured as 0. It changes nothing else. -/
def doBypass (d : Dev) : Dev := if d.mgmtOn then d.setTap { d.sec.tap with ir := irBypass, out := 0, extest := false } else d

def execBypass (s : State) : Host.Outcome State Fault Refusal := done s (doBypass s.dev)

/-- IDCODE. -/
def doIdcode (d : Dev) : Dev := if d.mgmtOn then d.setTap { d.sec.tap with ir := irIdcode, out := idcodeValue, extest := false } else d

def execIdcode (s : State) : Host.Outcome State Fault Refusal := done s (doIdcode s.dev)

/-- EXTEST: the boundary register drives the lands; closed, it acts as BYPASS. [DESIGN CHOICE, log 54] -/
def doExtest (lands : List Bool) (d : Dev) : Dev :=
  if !d.mgmtOn then d
  else if d.scanOpen then d.setTap { d.sec.tap with ir := irExtest, boundary := lands, extest := true }
  else doBypass d

def execExtest (lands : List Bool) (s : State) : Host.Outcome State Fault Refusal := done s (doExtest lands s.dev)

/-- SAMPLE/PRELOAD: the boundary register captures the lands; the spec gives no order of them (free). Closed, it acts as
BYPASS. [DESIGN CHOICE, log 54] -/
def doSamplePreload (d : Dev) : Dev :=
  if !d.mgmtOn then d
  else if d.scanOpen then
    let (n, e) := d.takeFresh
    e.setTap { d.sec.tap with ir := irSample, boundary := Config.lands n, extest := false }
  else doBypass d

def execSamplePreload (s : State) : Host.Outcome State Fault Refusal := done s (doSamplePreload s.dev)

/-! ## DAP -/

/-- Device physical memory answers: its rails are on and it is not in self-refresh. -/
def Dev.memAnswers (d : Dev) (pa : Nat) : Bool := d.power.rails.mem && decide (d.stage < 4) && decide (pa + 8 ≤ 0x18000000000)

/-- The home way of a device line, where it has one: partition, slice, key and way. -/
def Dev.wayOfLine (d : Dev) (n : Nat) : Option (Nat × Nat × Way) :=
  match d.homeOfLine n with
  | none => none
  | some (p, h) => ((d.slice h.slice).findWay h.set (d.homeWays p) ⟨false, n⟩).map (fun x => (h.slice, x.1, x.2))

/-- A byte of device memory as the caches and the memory hold it. [DESIGN CHOICE, log 54] -/
def Dev.dapByte (d : Dev) (pa : Nat) : Byte :=
  let k := pa % 128
  match d.wayOfLine (pa / 128) with
  | some (_, _, w) => if w.valid.getLsbD (k / 32) then byteOf w.data.toNat k else Mem.read d.mem pa
  | none => Mem.read d.mem pa

/-- [DESIGN CHOICE, log 54] -/
def Dev.dapSet (d : Dev) (pa : Nat) (b : Byte) : Dev :=
  let k := pa % 128
  let d1 : Dev := { d with mem := Mem.write d.mem pa b }
  match d.wayOfLine (pa / 128) with
  | some (s, key, w) =>
    if w.valid.getLsbD (k / 32) then
      d1.setSlice s ((d1.slice s).setWay key { w with data := BitVec.ofNat 1024 (putBytes w.data.toNat k 1 b.toNat) })
    else d1
  | none => d1

def Dev.dapRead (d : Dev) (pa : Nat) : DWord := BitVec.ofNat 64 (ofBytes ((List.range 8).map (fun k => d.dapByte (pa + k))))
def Dev.dapWrite (d : Dev) (pa : Nat) (v : DWord) : Dev := (List.range 8).foldl (fun (e : Dev) k => e.dapSet (pa + k) (byteOf v.toNat k)) d

/-- A write of the DAP to physical function 0's registers; action START of HUB_START_CTL begins a start, whose physical
tests are free. [DESIGN CHOICE, log 50] -/
def Dev.dapRegWrite (d : Dev) (u : Fuses) (off v : Nat) : Dev :=
  if !widthOk off 8 then d
  else if off = 0x10008 ∧ v % 65536 = startKey ∧ v / 65536 % 65536 = 2 ∧ d.oasisStart then
    let (n, e) := d.takeFresh
    e.beginStart u (Config.startEnv n)
  else d.writeBar0 u off 8 v

/-- DAP: one scan shifts the last access's data register out and a new one in, and the access completes in Update-DR.
Sealed, it acts as BYPASS. [DESIGN CHOICE, log 54] -/
def doDap (dr : BitVec 128) (u : Fuses) (d : Dev) : Dev :=
  if !d.mgmtOn then d
  else if !d.tapOpen then doBypass d
  else
    let addr := dr.toNat % 2 ^ 52
    let data : DWord := dr.extractLsb' 64 64
    let isWrite := dr.getLsbD 52
    let regs := dr.getLsbD 53
    let keep := fun (e : Dev) (v : DWord) =>
      e.setTap { e.sec.tap with ir := irDap, out := d.sec.tap.dr, dr := v ++ dr.extractLsb' 0 64, extest := false }
    if isWrite then keep (if regs then d.dapRegWrite u addr data.toNat else if d.memAnswers addr then d.dapWrite addr data else d) data
    else
      let (n, e) := d.takeFresh
      keep e (if regs then BitVec.ofNat 64 (d.readReg u n .pf0Bar0 addr 8) else if d.memAnswers addr then d.dapRead addr else Config.dapOpen n)

def execDap (dr : BitVec 128) (s : State) : Host.Outcome State Fault Refusal := done s (doDap dr s.fuses s.dev)

end Sys2Proof.Machine
end

