-- ==== Sys2Proof/Machine/Time.lean ====
section
/-! DEFINITION. Device time: the tick of 1 µs, and the PPS input that slews it (01 R52, 20 R561, 11 R365, 16 R479). -/

namespace Sys2Proof.Machine

open Sys2Proof

/-- Nanoseconds of one tick, and the slew state after it: at most 100 ppm, a tenth of a nanosecond in a tick; none while
no edge has arrived for 2 s. [DESIGN CHOICE, log 4; DEDUCED, log 58] -/
def PpsSt.tick (x : PpsSt) (now : Nat) : Nat × PpsSt :=
  if x.err = 0 ∨ now ≥ x.last + 2000000000 then (1000, { x with err := 0, sub := 0 })
  else if x.sub < 9 then (1000, { x with sub := x.sub + 1 })
  else if x.err > 0 then (1001, { x with err := x.err - 1, sub := 0 })
  else (999, { x with err := x.err + 1, sub := 0 })

/-- Whether a task's time counts: it has become its cursor's head and is not complete, no group of it is halted, and its
partition runs below stage 3 (R365, 03 R117). [DESIGN CHOICE, log 4; DEDUCED, log 47] -/
def Dev.counts? (d : Dev) (t : Task) : Bool :=
  t.head && decide (d.stage < 3) && (match d.partOfQueue t.q with | some p => d.partRuns p | none => false)
    && !d.groups.any (fun g => g.2.q == t.q && g.2.i == t.i && g.2.halted.isSome)

/-- Throttled time by die and reason (16 R479). [DESIGN CHOICE, log 4] -/
def Dev.countThrottle (d : Dev) (ns : Nat) : Dev :=
  if !d.live then d
  else
    let thr := (List.range 8).foldl (fun (l : Sparse Nat) k =>
      let r := d.dieReason k
      if r = 0 then l else sset 0 l (4 * k + r - 1) ((sget 0 l (4 * k + r - 1) + ns) % 2 ^ 64)) d.power.thr
    { d with power := { d.power with thr := thr } }

/-- Sends for `cycles` cycles, `per` of them an entry (21 R571). [DEDUCED, log 59] -/
def FaultSt.sendTrace (per : Nat) : Nat → FaultSt → FaultSt
  | 0, f => f
  | n + 1, f =>
    match f.trace with
    | [] => { f with traceCycles := 0 }
    | e :: rest =>
      if f.traceCycles + 1 ≥ per then sendTrace per n { f with trace := rest, traceCycles := 0, traced := f.traced ++ [e] }
      else sendTrace per n { f with traceCycles := f.traceCycles + 1 }

/-- The trace port over a tick: 100 cycles of TRACE_CLK; an entry takes 32 at width 8 and 64 at width 4. At width 0
nothing is sent. [DEDUCED, log 59] -/
def Dev.tickTrace (d : Dev) : Dev :=
  if d.conf.traceWidth = 0 then { d with faults := { d.faults with trace := [], traceCycles := 0 } }
  else { d with faults := d.faults.sendTrace (256 / d.conf.traceWidth) 100 }

/-- What is in progress between ticks goes on: instance commands, held host requests, an unseal. [DESIGN CHOICE, log 4; DESIGN CHOICE, log 5] -/
def tickWork (u : Fuses) (d : Dev) : Dev × Fuses :=
  let d1 := if d.live then d.instTick.serveHeld else d
  unsealStep u d1

/-- TIME_TICK. [DESIGN CHOICE, log 4] -/
def doTimeTick (u : Fuses) (d : Dev) : Dev × Fuses :=
  if !(d.mgmtOn && d.power.pins.resetN) then (d, u)
  else
    let (ns, pps) := d.pps.tick d.time
    let tasks := d.tasks.map (fun t => if d.counts? t then { t with count := t.count + 1 } else t)
    let d1 : Dev := { d with time := (d.time + ns) % 2 ^ 64, pps := pps, tasks := tasks, coh := if d.stage ≥ 4 then d.coh else d.coh + ns }
    tickWork u (d1.countThrottle ns).tickTrace

def execTimeTick (s : State) : Host.Outcome State Fault Refusal :=
  let r := doTimeTick s.fuses s.dev
  .next { s with dev := r.1, fuses := r.2 }

/-- The error of an edge: nanoseconds to the nearest whole second counted from the first edge. [DEDUCED, log 58] -/
def ppsError (first now : Nat) : Int :=
  let r := (now - first) % 1000000000
  if r ≤ 500000000 then -(r : Int) else 1000000000 - (r : Int)

/-- PPS_IN: a rising edge, where the image selects the input (02 R75). [DEDUCED, log 58] -/
def doPpsIn (d : Dev) : Dev :=
  if !(d.live && d.conf.pps) then d
  else match d.pps.first with
    | none => { d with pps := { first := some d.time, last := d.time } }
    | some f => { d with pps := { d.pps with last := d.time, err := ppsError f d.time } }

def execPpsIn (s : State) : Host.Outcome State Fault Refusal := done s (doPpsIn s.dev)

end Sys2Proof.Machine
end

