-- ==== Sys2Proof/Machine/Dispatch.lean ====
section
/-! DEFINITION. The meaning of each command: one arm for each constructor of Instr. -/

namespace Sys2Proof.Machine

open Sys2Proof

/-- The effect of a command on everything but the queue of waiting commands. -/
def exec (i : Instr) (s : State) : Host.Outcome State Fault Refusal :=
  match i with
  | .start env => Sys2Proof.Machine.execStart env s
  | .phaseBound => Sys2Proof.Machine.execPhaseBound s
  | .startRetry env => Sys2Proof.Machine.execStartRetry env s
  | .clearRecord key => Sys2Proof.Machine.execClearRecord key s
  | .hubStartCtlStart key env => Sys2Proof.Machine.execHubStartCtlStart key env s
  | .resetNAssert => Sys2Proof.Machine.execResetNAssert s
  | .pwrOkDeassert => Sys2Proof.Machine.execPwrOkDeassert s
  | .vinRise => Sys2Proof.Machine.execVinRise s
  | .vinLoss => Sys2Proof.Machine.execVinLoss s
  | .iadd g w => Sys2Proof.Machine.execIadd g w s
  | .isub g w => Sys2Proof.Machine.execIsub g w s
  | .imulLo g w => Sys2Proof.Machine.execImulLo g w s
  | .imulHi g w => Sys2Proof.Machine.execImulHi g w s
  | .imadLo g w => Sys2Proof.Machine.execImadLo g w s
  | .imin g w => Sys2Proof.Machine.execImin g w s
  | .imax g w => Sys2Proof.Machine.execImax g w s
  | .iabs g w => Sys2Proof.Machine.execIabs g w s
  | .idp4 g w => Sys2Proof.Machine.execIdp4 g w s
  | .blut g w => Sys2Proof.Machine.execBlut g w s
  | .shl g w => Sys2Proof.Machine.execShl g w s
  | .shr g w => Sys2Proof.Machine.execShr g w s
  | .sar g w => Sys2Proof.Machine.execSar g w s
  | .shf g w => Sys2Proof.Machine.execShf g w s
  | .popc g w => Sys2Proof.Machine.execPopc g w s
  | .clz g w => Sys2Proof.Machine.execClz g w s
  | .brev g w => Sys2Proof.Machine.execBrev g w s
  | .bfe g w => Sys2Proof.Machine.execBfe g w s
  | .bfi g w => Sys2Proof.Machine.execBfi g w s
  | .isetp g w => Sys2Proof.Machine.execIsetp g w s
  | .fsetp g w => Sys2Proof.Machine.execFsetp g w s
  | .sel g w => Sys2Proof.Machine.execSel g w s
  | .plut g w => Sys2Proof.Machine.execPlut g w s
  | .pmovP2v g w => Sys2Proof.Machine.execPmovP2v g w s
  | .pmovV2p g w => Sys2Proof.Machine.execPmovV2p g w s
  | .fadd g w => Sys2Proof.Machine.execFadd g w s
  | .fmul g w => Sys2Proof.Machine.execFmul g w s
  | .ffma g w => Sys2Proof.Machine.execFfma g w s
  | .fmin g w => Sys2Proof.Machine.execFmin g w s
  | .fmax g w => Sys2Proof.Machine.execFmax g w s
  | .frcp g w => Sys2Proof.Machine.execFrcp g w s
  | .fdiv g w => Sys2Proof.Machine.execFdiv g w s
  | .fsqrt g w => Sys2Proof.Machine.execFsqrt g w s
  | .frsq g w => Sys2Proof.Machine.execFrsq g w s
  | .fex2 g w => Sys2Proof.Machine.execFex2 g w s
  | .flg2 g w => Sys2Proof.Machine.execFlg2 g w s
  | .fsin g w => Sys2Proof.Machine.execFsin g w s
  | .fcos g w => Sys2Proof.Machine.execFcos g w s
  | .ftanh g w => Sys2Proof.Machine.execFtanh g w s
  | .cvt g w => Sys2Proof.Machine.execCvt g w s
  | .cvtRs g w => Sys2Proof.Machine.execCvtRs g w s
  | .cvtPack g w => Sys2Proof.Machine.execCvtPack g w s
  | .cvtUnpack g w => Sys2Proof.Machine.execCvtUnpack g w s
  | .mov g w => Sys2Proof.Machine.execMov g w s
  | .movSr g w => Sys2Proof.Machine.execMovSr g w s
  | .movTosr g w => Sys2Proof.Machine.execMovTosr g w s
  | .ldLocal g w => Sys2Proof.Machine.execLdLocal g w s
  | .stLocal g w => Sys2Proof.Machine.execStLocal g w s
  | .ldGlobal g w => Sys2Proof.Machine.execLdGlobal g w s
  | .stGlobal g w => Sys2Proof.Machine.execStGlobal g w s
  | .ldConst g w => Sys2Proof.Machine.execLdConst g w s
  | .prefetchGlobal g w => Sys2Proof.Machine.execPrefetchGlobal g w s
  | .bcopyG2l g w => Sys2Proof.Machine.execBcopyG2l g w s
  | .bcopyL2g g w => Sys2Proof.Machine.execBcopyL2g g w s
  | .bcopyComplete die core sub slot => Sys2Proof.Machine.execBcopyComplete die core sub slot s
  | .bwait g w => Sys2Proof.Machine.execBwait g w s
  | .atomAdd g w => Sys2Proof.Machine.execAtomAdd g w s
  | .atomMin g w => Sys2Proof.Machine.execAtomMin g w s
  | .atomMax g w => Sys2Proof.Machine.execAtomMax g w s
  | .atomAnd g w => Sys2Proof.Machine.execAtomAnd g w s
  | .atomOr g w => Sys2Proof.Machine.execAtomOr g w s
  | .atomXor g w => Sys2Proof.Machine.execAtomXor g w s
  | .atomExch g w => Sys2Proof.Machine.execAtomExch g w s
  | .atomCas g w => Sys2Proof.Machine.execAtomCas g w s
  | .redAdd g w => Sys2Proof.Machine.execRedAdd g w s
  | .redMin g w => Sys2Proof.Machine.execRedMin g w s
  | .redMax g w => Sys2Proof.Machine.execRedMax g w s
  | .rclose g w => Sys2Proof.Machine.execRclose g w s
  | .fence g w => Sys2Proof.Machine.execFence g w s
  | .nop g w => Sys2Proof.Machine.execNop g w s
  | .bra g w => Sys2Proof.Machine.execBra g w s
  | .braI g w => Sys2Proof.Machine.execBraI g w s
  | .call g w => Sys2Proof.Machine.execCall g w s
  | .callI g w => Sys2Proof.Machine.execCallI g w s
  | .ret g w => Sys2Proof.Machine.execRet g w s
  | .breakAway g => Sys2Proof.Machine.execBreakAway g s
  | .sync g w => Sys2Proof.Machine.execSync g w s
  | .syncBlock g w => Sys2Proof.Machine.execSyncBlock g w s
  | .syncCluster g w => Sys2Proof.Machine.execSyncCluster g w s
  | .yield g w => Sys2Proof.Machine.execYield g w s
  | .exit g w => Sys2Proof.Machine.execExit g w s
  | .shfl g w => Sys2Proof.Machine.execShfl g w s
  | .vote g w => Sys2Proof.Machine.execVote g w s
  | .redux g w => Sys2Proof.Machine.execRedux g w s
  | .mmaF8F32 g w => Sys2Proof.Machine.execMmaF8F32 g w s
  | .mmaI8S32 g w => Sys2Proof.Machine.execMmaI8S32 g w s
  | .mmaBf16F32 g w => Sys2Proof.Machine.execMmaBf16F32 g w s
  | .mmaF16F32 g w => Sys2Proof.Machine.execMmaF16F32 g w s
  | .mmaMxF32 g w => Sys2Proof.Machine.execMmaMxF32 g w s
  | .mmaIx4F32 g w => Sys2Proof.Machine.execMmaIx4F32 g w s
  | .mmaI4S32 g w => Sys2Proof.Machine.execMmaI4S32 g w s
  | .mms g w => Sys2Proof.Machine.execMms g w s
  | .accLd g w => Sys2Proof.Machine.execAccLd g w s
  | .accSt g w => Sys2Proof.Machine.execAccSt g w s
  | .accZero g w => Sys2Proof.Machine.execAccZero g w s
  | .smxMax g w => Sys2Proof.Machine.execSmxMax g w s
  | .smxSum g w => Sys2Proof.Machine.execSmxSum g w s
  | .bkpt g w => Sys2Proof.Machine.execBkpt g w s
  | .pendingRecordWrite ring => Sys2Proof.Machine.execPendingRecordWrite ring s
  | .blockPlace q slot => Sys2Proof.Machine.execBlockPlace q slot s
  | .rdS src dst => Sys2Proof.Machine.execRdS src dst s
  | .rdO src dst => Sys2Proof.Machine.execRdO src dst s
  | .wr src dst => Sys2Proof.Machine.execWr src dst s
  | .atm src dst => Sys2Proof.Machine.execAtm src dst s
  | .redc src dst => Sys2Proof.Machine.execRedc src dst s
  | .fill src dst => Sys2Proof.Machine.execFill src dst s
  | .ack src dst => Sys2Proof.Machine.execAck src dst s
  | .atmRsp src dst => Sys2Proof.Machine.execAtmRsp src dst s
  | .inv src dst => Sys2Proof.Machine.execInv src dst s
  | .invAck src dst => Sys2Proof.Machine.execInvAck src dst s
  | .evn src dst => Sys2Proof.Machine.execEvn src dst s
  | .held src dst => Sys2Proof.Machine.execHeld src dst s
  | .holdNoticeTimer slice idx => Sys2Proof.Machine.execHoldNoticeTimer slice idx s
  | .channelReadData slice line errs => Sys2Proof.Machine.execChannelReadData slice line errs s
  | .coherenceResponseTimeout unit line => Sys2Proof.Machine.execCoherenceResponseTimeout unit line s
  | .memrd hpa mv => Sys2Proof.Machine.execMemrd hpa mv s
  | .memrddata hpa mv => Sys2Proof.Machine.execMemrddata hpa mv s
  | .meminv hpa mv => Sys2Proof.Machine.execMeminv hpa mv s
  | .memclnevct hpa => Sys2Proof.Machine.execMemclnevct hpa s
  | .memwr hpa data mv => Sys2Proof.Machine.execMemwr hpa data mv s
  | .memwrptl hpa data be mv => Sys2Proof.Machine.execMemwrptl hpa data be mv s
  | .birspi hpa => Sys2Proof.Machine.execBirspi hpa s
  | .birsps hpa => Sys2Proof.Machine.execBirsps hpa s
  | .snpdata partition hpa => Sys2Proof.Machine.execSnpdata partition hpa s
  | .snpinv partition hpa => Sys2Proof.Machine.execSnpinv partition hpa s
  | .snpcur partition hpa => Sys2Proof.Machine.execSnpcur partition hpa s
  | .hostCacheResponse partition hpa grant data => Sys2Proof.Machine.execHostCacheResponse partition hpa grant data s
  | .spillWaitResume slice => Sys2Proof.Machine.execSpillWaitResume slice s
  | .correctionWrite channel => Sys2Proof.Machine.execCorrectionWrite channel s
  | .refresh channel bank => Sys2Proof.Machine.execRefresh channel bank s
  | .refreshRatePoll package readout => Sys2Proof.Machine.execRefreshRatePoll package readout s
  | .patrolScrubRead channel errs => Sys2Proof.Machine.execPatrolScrubRead channel errs s
  | .recalibration channel ok => Sys2Proof.Machine.execRecalibration channel ok s
  | .recalibrationOverdue channel ok => Sys2Proof.Machine.execRecalibrationOverdue channel ok s
  | .dblProducer source page slot v => Sys2Proof.Machine.execDblProducer source page slot v s
  | .bootstrapCreate source page slot value => Sys2Proof.Machine.execBootstrapCreate source page slot value s
  | .descriptorRead q => Sys2Proof.Machine.execDescriptorRead q s
  | .fencePoll q cursor => Sys2Proof.Machine.execFencePoll q cursor s
  | .kernel q slot => Sys2Proof.Machine.execKernel q slot s
  | .taskNop q slot => Sys2Proof.Machine.execTaskNop q slot s
  | .copy q slot => Sys2Proof.Machine.execCopy q slot s
  | .copy2d q slot => Sys2Proof.Machine.execCopy2d q slot s
  | .taskFill q slot => Sys2Proof.Machine.execTaskFill q slot s
  | .copyReduce q slot => Sys2Proof.Machine.execCopyReduce q slot s
  | .put q slot => Sys2Proof.Machine.execPut q slot s
  | .get q slot => Sys2Proof.Machine.execGet q slot s
  | .collective q slot => Sys2Proof.Machine.execCollective q slot s
  | .queueCreate q slot => Sys2Proof.Machine.execQueueCreate q slot s
  | .queueDestroy q slot => Sys2Proof.Machine.execQueueDestroy q slot s
  | .destroyDrainComplete target => Sys2Proof.Machine.execDestroyDrainComplete target s
  | .pin q slot => Sys2Proof.Machine.execPin q slot s
  | .unpin q slot => Sys2Proof.Machine.execUnpin q slot s
  | .tagClose q slot => Sys2Proof.Machine.execTagClose q slot s
  | .debugAttach q slot => Sys2Proof.Machine.execDebugAttach q slot s
  | .debugRead q slot => Sys2Proof.Machine.execDebugRead q slot s
  | .debugWrite q slot => Sys2Proof.Machine.execDebugWrite q slot s
  | .debugStep q slot => Sys2Proof.Machine.execDebugStep q slot s
  | .debugResume q slot => Sys2Proof.Machine.execDebugResume q slot s
  | .debugKill q slot => Sys2Proof.Machine.execDebugKill q slot s
  | .debugDetach q slot => Sys2Proof.Machine.execDebugDetach q slot s
  | .taskDone q slot => Sys2Proof.Machine.execTaskDone q slot s
  | .taskTimeout q slot => Sys2Proof.Machine.execTaskTimeout q slot s
  | .faultReport rep => Sys2Proof.Machine.execFaultReport rep s
  | .warmRestart p selfTestOk => Sys2Proof.Machine.execWarmRestart p selfTestOk s
  | .sidebandMessage m => Sys2Proof.Machine.execSidebandMessage m s
  | .linkRetrain modules rate => Sys2Proof.Machine.execLinkRetrain modules rate s
  | .linkDown => Sys2Proof.Machine.execLinkDown s
  | .hotReset => Sys2Proof.Machine.execHotReset s
  | .functionLevelReset fn => Sys2Proof.Machine.execFunctionLevelReset fn s
  | .dmwrPost space off size body => Sys2Proof.Machine.execDmwrPost space off size body s
  | .postedWriteDrop space off => Sys2Proof.Machine.execPostedWriteDrop space off s
  | .hostCacheidWrite v => Sys2Proof.Machine.execHostCacheidWrite v s
  | .hdmDecoderCommit n base size ways gran => Sys2Proof.Machine.execHdmDecoderCommit n base size ways gran s
  | .mbxRxAck mb v => Sys2Proof.Machine.execMbxRxAck mb v s
  | .registerWrite space off size v => Sys2Proof.Machine.execRegisterWrite space off size v s
  | .instReset => Sys2Proof.Machine.execInstReset s
  | .instFreeze => Sys2Proof.Machine.execInstFreeze s
  | .freezeDrainComplete inst => Sys2Proof.Machine.execFreezeDrainComplete inst s
  | .instSave => Sys2Proof.Machine.execInstSave s
  | .instRestore => Sys2Proof.Machine.execInstRestore s
  | .instThaw => Sys2Proof.Machine.execInstThaw s
  | .s2SetRoot => Sys2Proof.Machine.execS2SetRoot s
  | .s2Invalidate => Sys2Proof.Machine.execS2Invalidate s
  | .seifTraining port peer => Sys2Proof.Machine.execSeifTraining port peer s
  | .retrain port peer => Sys2Proof.Machine.execRetrain port peer s
  | .laneLossOfLock port lane => Sys2Proof.Machine.execLaneLossOfLock port lane s
  | .payload port flit => Sys2Proof.Machine.execPayload port flit s
  | .nak port ack => Sys2Proof.Machine.execNak port ack s
  | .nullFlit port ack ctrlCredits bulkCredits => Sys2Proof.Machine.execNullFlit port ack ctrlCredits bulkCredits s
  | .nullTimer port => Sys2Proof.Machine.execNullTimer port s
  | .laneChange port lanes => Sys2Proof.Machine.execLaneChange port lanes s
  | .putData port => Sys2Proof.Machine.execPutData port s
  | .putAck port => Sys2Proof.Machine.execPutAck port s
  | .getReq port => Sys2Proof.Machine.execGetReq port s
  | .getData port => Sys2Proof.Machine.execGetData port s
  | .signal port => Sys2Proof.Machine.execSignal port s
  | .signalAck port => Sys2Proof.Machine.execSignalAck port s
  | .collReady port => Sys2Proof.Machine.execCollReady port s
  | .collData port => Sys2Proof.Machine.execCollData port s
  | .collAbort port => Sys2Proof.Machine.execCollAbort port s
  | .nack port => Sys2Proof.Machine.execNack port s
  | .controlPeriod meas => Sys2Proof.Machine.execControlPeriod meas s
  | .budgetSet id value => Sys2Proof.Machine.execBudgetSet id value s
  | .coreCurrentLimit rail mv => Sys2Proof.Machine.execCoreCurrentLimit rail mv s
  | .inputCurrentLimit isOver => Sys2Proof.Machine.execInputCurrentLimit isOver s
  | .monitorReading monitor reading => Sys2Proof.Machine.execMonitorReading monitor reading s
  | .inputSample mv => Sys2Proof.Machine.execInputSample mv s
  | .stageExit => Sys2Proof.Machine.execStageExit s
  | .flowOkNDeassert => Sys2Proof.Machine.execFlowOkNDeassert s
  | .coolantStop => Sys2Proof.Machine.execCoolantStop s
  | .thermalTrip monitor tj => Sys2Proof.Machine.execThermalTrip monitor tj s
  | .canary unit handshake ok => Sys2Proof.Machine.execCanary unit handshake ok s
  | .configCode unit word err => Sys2Proof.Machine.execConfigCode unit word err s
  | .meterCheck rail a b => Sys2Proof.Machine.execMeterCheck rail a b s
  | .meterInputComparison ok => Sys2Proof.Machine.execMeterInputComparison ok s
  | .voltageMon rail a b => Sys2Proof.Machine.execVoltageMon rail a b s
  | .thermalMon pair a b => Sys2Proof.Machine.execThermalMon pair a b s
  | .lockstep unit agree => Sys2Proof.Machine.execLockstep unit agree s
  | .clockMon unit ok => Sys2Proof.Machine.execClockMon unit ok s
  | .arm ctl => Sys2Proof.Machine.execArm ctl s
  | .disarm => Sys2Proof.Machine.execDisarm s
  | .meterTick inputNj domains => Sys2Proof.Machine.execMeterTick inputNj domains s
  | .pageWrite => Sys2Proof.Machine.execPageWrite s
  | .ldgConsumed v => Sys2Proof.Machine.execLdgConsumed v s
  | .fltLogConsumed v => Sys2Proof.Machine.execFltLogConsumed v s
  | .getNonce writeOk => Sys2Proof.Machine.execGetNonce writeOk s
  | .nonceExpiry => Sys2Proof.Machine.execNonceExpiry s
  | .unseal tok readOk => Sys2Proof.Machine.execUnseal tok readOk s
  | .testAuth tok readOk => Sys2Proof.Machine.execTestAuth tok readOk s
  | .rollbackCommit fuseOk => Sys2Proof.Machine.execRollbackCommit fuseOk s
  | .ownerProvision modulus readOk fuseOk => Sys2Proof.Machine.execOwnerProvision modulus readOk fuseOk s
  | .fieldReturn tok readOk fuseOk => Sys2Proof.Machine.execFieldReturn tok readOk fuseOk s
  | .revokeKey tok readOk fuseOk => Sys2Proof.Machine.execRevokeKey tok readOk fuseOk s
  | .extest lands => Sys2Proof.Machine.execExtest lands s
  | .samplePreload => Sys2Proof.Machine.execSamplePreload s
  | .idcode => Sys2Proof.Machine.execIdcode s
  | .dap dr => Sys2Proof.Machine.execDap dr s
  | .bypass => Sys2Proof.Machine.execBypass s
  | .entdaa addr => Sys2Proof.Machine.execEntdaa addr s
  | .privateRead => Sys2Proof.Machine.execPrivateRead s
  | .setEndpointId eid => Sys2Proof.Machine.execSetEndpointId eid s
  | .getEndpointId => Sys2Proof.Machine.execGetEndpointId s
  | .getEndpointUuid => Sys2Proof.Machine.execGetEndpointUuid s
  | .getMctpVersionSupport type => Sys2Proof.Machine.execGetMctpVersionSupport type s
  | .getMessageTypeSupport => Sys2Proof.Machine.execGetMessageTypeSupport s
  | .gettid => Sys2Proof.Machine.execGettid s
  | .getpldmversion type => Sys2Proof.Machine.execGetpldmversion type s
  | .getpldmtypes => Sys2Proof.Machine.execGetpldmtypes s
  | .getpldmcommands type => Sys2Proof.Machine.execGetpldmcommands type s
  | .getpdr handle => Sys2Proof.Machine.execGetpdr handle s
  | .getpdrrepositoryinfo => Sys2Proof.Machine.execGetpdrrepositoryinfo s
  | .getsensorreading id => Sys2Proof.Machine.execGetsensorreading id s
  | .getstatesensorreadings id => Sys2Proof.Machine.execGetstatesensorreadings id s
  | .getnumericeffectervalue id => Sys2Proof.Machine.execGetnumericeffectervalue id s
  | .requestupdate => Sys2Proof.Machine.execRequestupdate s
  | .passcomponenttable id size stamp => Sys2Proof.Machine.execPasscomponenttable id size stamp s
  | .updatecomponent size => Sys2Proof.Machine.execUpdatecomponent size s
  | .requestfirmwaredata offset len image last => Sys2Proof.Machine.execRequestfirmwaredata offset len image last s
  | .activatefirmware env => Sys2Proof.Machine.execActivatefirmware env s
  | .getVersion => Sys2Proof.Machine.execGetVersion s
  | .getCapabilities => Sys2Proof.Machine.execGetCapabilities s
  | .negotiateAlgorithms offered => Sys2Proof.Machine.execNegotiateAlgorithms offered s
  | .getDigests => Sys2Proof.Machine.execGetDigests s
  | .getCertificate slot offset len => Sys2Proof.Machine.execGetCertificate slot offset len s
  | .challenge slot nonce => Sys2Proof.Machine.execChallenge slot nonce s
  | .getMeasurements op nonce sign => Sys2Proof.Machine.execGetMeasurements op nonce sign s
  | .timeTick => Sys2Proof.Machine.execTimeTick s
  | .ppsIn => Sys2Proof.Machine.execPpsIn s
  | .flowOkNAssert => Sys2Proof.Machine.execFlowOkNAssert s
  | .pwrOkAssert env => Sys2Proof.Machine.execPwrOkAssert env s
  | .matrixUnitWorkComplete die core sub => Sys2Proof.Machine.execMatrixUnitWorkComplete die core sub s

end Sys2Proof.Machine
end

