-- ==== Sys2Proof/Safety.lean ====
section
/-! DEFINITION. Safe runs, and the terms the statements use: what a command may rely on, what it leaves unchanged. -/

namespace Sys2Proof

open Sys2Proof.Machine

/-- `k` steps from `s` all answer a next state. -/
def Safe : Nat → State → Prop
  | 0, _ => True
  | k + 1, s => ∃ t, step s = .next t ∧ Safe k t

/-- A step answers a next state whose device is `d`: the queue of waiting commands and the fuses are unchanged. -/
def Gives (s : State) (c : Instr) (d : Dev) : Prop := exec c s = .next { s with dev := d }

/-- A command answers the next state `t`, which has the queue and the fuses of `s`. -/
def Next (s : State) (c : Instr) (t : State) : Prop := exec c s = .next t ∧ t.pending = s.pending ∧ t.fuses = s.fuses

/-! ## Instructions of a group -/

/-- Group `g` can issue in `s`, with `c` at hand (03 R87, R113, R116): it is resident, runs a path, its partition runs and
its pc is a legal one (04 R133). -/
def CanIssue (s : State) (g : GroupRef) (c : Ctx) : Prop :=
  s.dev.ctx g = some c ∧ c.path.pc % 8 = 0 ∧ c.path.pc < 2 ^ 56

/-- The word names only registers `us` that no access in flight is still to write (04 R129, R143). -/
def Legal (s : State) (c : Ctx) (uses : Option (List Use)) : Prop :=
  ∃ us, uses = some us ∧ s.dev.interlocked c us = false

/-- What an instruction that acts on its group alone leaves unchanged: every other group, every core but its count of
issue slots, and of the device everything but groups, that count and the activity counts (19 R539, 20 R564). Device
memory is part of the device and so is unchanged. -/
structure OnlyGroup (s : State) (c : Ctx) (slots : Nat) (t : State) : Prop where
  queue  : t.pending = s.pending
  fuses  : t.fuses = s.fuses
  others : ∀ k, k ≠ c.key → t.dev.group k = s.dev.group k
  cores  : ∀ k, { t.dev.core k with issued := 0 } = { s.dev.core k with issued := 0 }
  issued : ∀ k, (t.dev.core k).issued = if k = c.coreKey then ((s.dev.core k).issued + slots) % 2 ^ 32 else (s.dev.core k).issued
  counts : t.dev.counts = (s.dev.meter (domCompute c.die) c.run.acct slots).counts
  dev    : { t.dev with groups := s.dev.groups, cores := s.dev.cores, counts := s.dev.counts } = s.dev

/-- The group `k`, which holds the results, with its running path moved on to `pc`; the group then parks, merges and picks
its next path as 03 R109-R111 say, which touches no register (statement SettlingKeepsRegisters). -/
def Moved (c : Ctx) (t : State) (k : Group) (pc : Nat) : Prop := t.dev.group c.key = some (k.goto pc).settled

/-- The device after an instruction that took `slots` issue slots and whose running path goes on at `pc`. -/
def went (d : Dev) (c : Ctx) (slots pc : Nat) : Dev := (d.slotsUsed c slots).advance c.key pc

/-- The running path is the group's only one and no point is recorded (03 R107, R108). -/
def Alone (c : Ctx) : Prop := c.grp.paths = [c.path] ∧ c.path.points = [] ∧ c.grp.points = []

/-- The result of `n` registers stands in d of each lane that takes part, or in u(d) in the uniform form, with zeros above
(04 R137); every other register keeps its value, and nothing else of the group changes but the flags. -/
structure Written (w : FmtA) (takers : List Nat) (g h : Group) (n : Nat) (val : Nat → Nat) : Prop where
  lanes   : w.uf = false → ∀ l ∈ takers, h.readVs w.d.toNat l n = val l % 2 ^ (32 * n)
  uniform : w.uf = true → ∀ l ∈ takers, (h.readU w.d.toNat).toNat = val l % 2 ^ (32 * n)
  otherV  : ∀ r l, l < 32 → (w.uf = true ∨ l ∉ takers ∨ r < w.d.toNat ∨ w.d.toNat + n ≤ r) → h.readV r l = g.readV r l
  otherU  : ∀ r, (w.uf = false ∨ takers = [] ∨ r ≠ w.d.toNat) → h.readU r = g.readU r
  rest    : { h with v := g.v, u := g.u, flags := g.flags } = g

/-- An instruction that computes d from a, b and c in each lane that takes part, all sources read before d is written
(04 R135, R137, R138): the legality of its word, the registers of its operands, its issue slots, its length, and its
value in a lane, from what is at hand. -/
structure AluRow where
  instr : GroupRef → FmtA → Instr
  uses  : Nat → FmtA → Option (List Use)
  spec  : FmtA → ASpec
  slots : FmtA → Nat
  len   : FmtA → Nat := fun w => insLen w.lf
  value : Ctx → Nat → FmtA → Nat → Nat → Nat → Res

/-- The commonest row: the operands alone settle which words are legal, and the value. -/
def aluRow (instr : GroupRef → FmtA → Instr) (spec : FmtA → ASpec) (slots : FmtA → Nat) (value : FmtA → Nat → Nat → Nat → Res) : AluRow :=
  { instr := instr, uses := fun nv w => aUses nv w (spec w), spec := spec, slots := slots, value := fun _ _ => value }

/-- The result of a row in a lane. -/
def AluRow.at (r : AluRow) (c : Ctx) (w : FmtA) (l : Nat) : Res :=
  let sp := r.spec w
  r.value c l w (srcA c.grp w l sp.a.regs) (srcB c.grp w l sp.b.regs) (srcC c.grp w l sp.c.regs)

/-- Every row completes on every legal word: the result in every lane that takes part, the flags it raises, the pc past
the instruction, and nothing else changed. -/
def RowsComplete (rows : List AluRow) : Prop :=
  ∀ r ∈ rows, ∀ (s : State) (g : GroupRef) (c : Ctx) (w : FmtA),
    CanIssue s g c → Legal s c (r.uses c.grp.nv w) →
    ∃ t k, exec (r.instr g w) s = .next t ∧ OnlyGroup s c (r.slots w) t ∧ Moved c t k (c.path.pc + r.len w)
      ∧ Written w (c.takers w.guard w.uf) c.grp k (r.spec w).d.regs (fun l => (r.at c w l).val)
      ∧ k.flags = (c.takers w.guard w.uf).foldl (fun f l => f ||| (r.at c w l).flags) c.grp.flags

/-- Integer arithmetic (04 R147). -/
def integerRows : List AluRow :=
  let s := fun w => if tyWide w then 2 else 1
  let m := fun w => if tyWide w then 8 else 2
  [aluRow .iadd (int2 · true) s (fun w a b _ => tyResult w (w.mod.getLsbD 2) (tyVal w a + tyVal w b)),
   aluRow .isub (int2 · true) s (fun w a b _ => tyResult w (w.mod.getLsbD 2) (tyVal w a - tyVal w b)),
   aluRow .imulLo (int2 · false) m (fun w a b _ => tyResult w false (tyVal w a * tyVal w b)),
   aluRow .imulHi (int2 · false) m (fun w a b _ => tyResult w false ((tyVal w a * tyVal w b) / (2 ^ tyBits w : Nat))),
   aluRow .imadLo (int3 · true) m (fun w a b c => tyResult w (w.mod.getLsbD 2) (tyVal w a * tyVal w b + tyVal w c)),
   aluRow .imin (int2 · false) s (fun w a b _ => tyResult w false (min (tyVal w a) (tyVal w b))),
   aluRow .imax (int2 · false) s (fun w a b _ => tyResult w false (max (tyVal w a) (tyVal w b))),
   aluRow .iabs (fun w => { d := .reg (tyRegs w), a := .reg (tyRegs w), modOk := intModOk w false, uni := true }) s
     (fun w a _ _ => tyResult w false (if tyVal w a < 0 then -(tyVal w a) else tyVal w a)),
   aluRow .idp4 (fun w => { d := .reg 1, a := .reg 1, b := .reg 1, c := .reg 1, modOk := decide (w.mod.toNat < 4), long := true, uni := true })
     (fun _ => 1) (fun w a b c => { val := dot4 (w.mod.getLsbD 0) (w.mod.getLsbD 1) a b c })]

/-- Logic, shifts, bit counts and bit fields (04 R148, R149), and MOV (04 R142). -/
def logicRows : List AluRow :=
  let one := fun (w : FmtA) => ({ d := .reg 1, a := .reg (w64Regs w), modOk := decide (w.mod.toNat < 2), uni := true } : ASpec)
  let n := fun (w : FmtA) => if w.mod.getLsbD 8 then 2 else 1
  let m := fun (w : FmtA) => if w.mod == 2 then 2 else 1
  [aluRow .blut (fun w => { d := .reg (n w), a := .reg (n w), b := .reg (n w), c := .reg (n w), modOk := decide (w.mod.toNat < 512), long := true, uni := true })
     n (fun w a b c => { val := lut (w.mod.toNat % 256) (32 * n w) a b c }),
   aluRow .shl shiftSpec w64Regs (fun w a b _ => { val := (a <<< shiftCount w b) % 2 ^ (32 * w64Regs w) }),
   aluRow .shr shiftSpec w64Regs (fun w a b _ => { val := a >>> shiftCount w b }),
   aluRow .sar shiftSpec w64Regs (fun w a b _ =>
     { val := ((signed (32 * w64Regs w) a / (2 ^ shiftCount w b : Nat)) % (2 ^ (32 * w64Regs w) : Nat)).toNat }),
   aluRow .shf (fun w => { d := .reg 1, a := .reg 1, b := .reg 1, c := .reg 1, modOk := w.mod == 0 || w.mod == 2, long := true, uni := true })
     (fun _ => 1) (fun w a b c =>
       { val := if w.mod.getLsbD 1 then ((c * 2 ^ 32 + a) >>> (b % 32)) % 2 ^ 32 else (((c * 2 ^ 32 + a) <<< (b % 32)) >>> 32) % 2 ^ 32 }),
   aluRow .popc one (fun _ => 1) (fun w a _ _ => { val := popcount (32 * w64Regs w) a }),
   aluRow .clz one (fun _ => 1) (fun w a _ _ => { val := clz (32 * w64Regs w) a }),
   aluRow .brev (fun w => { one w with d := .reg (w64Regs w) }) w64Regs (fun w a _ _ => { val := bitReverse (32 * w64Regs w) a }),
   aluRow .bfe (fun w => { d := .reg 1, a := .reg 1, b := .reg 1, modOk := decide (w.mod.toNat < 2), long := true, uni := true })
     (fun _ => 1) (fun w a b _ => { val := bfExtract (w.mod.getLsbD 0) a b }),
   aluRow .bfi (fun w => { d := .reg 1, a := .reg 1, b := .reg 1, c := .reg 1, modOk := w.mod == 0, long := true, uni := true })
     (fun _ => 1) (fun _ a b c => { val := bfInsert a b c }),
   aluRow .mov (fun w => { d := .reg (m w), b := .reg (m w), modOk := w.mod == 0 || w.mod == 2, long := true, uni := true })
     (fun _ => 1) (fun _ _ b _ => { val := b }),
   { aluRow .sel (fun w => { d := .reg 1, a := .reg 1, b := .reg 1, c := .pred, modOk := w.mod == 0, long := true })
       (fun _ => 1) (fun _ _ _ _ => { val := 0 }) with
     value := fun c l w a b _ => { val := if (c.grp.readP w.c.toNat).getLsbD l then a else b } },
   { aluRow .pmovP2v (fun w => { d := .reg 1, modOk := w.mod == 0 }) (fun _ => 1) (fun _ _ _ _ => { val := 0 }) with
     value := fun c l _ _ _ _ => { val := (List.range 8).foldl (fun acc k => if (c.grp.readP k).getLsbD l then acc + 2 ^ k else acc) 0 } }]

/-- The lane SHFL reads in place of lane n, with k the low 5 bits of b: k, n - k, n + k or n XOR k, and n itself where that
is no lane of 0-31 or takes no part (04 R165). -/
def shflSource (c : Ctx) (w : FmtA) (n : Nat) : Nat :=
  let k : Nat := srcB c.grp w n 1 % 32
  let m : Nat := w.mod.toNat % 4
  let x : Int := if m = 0 then (k : Int) else if m = 1 then (n : Int) - k else if m = 2 then (n : Int) + k else ((n ^^^ k : Nat) : Int)
  if 0 ≤ x ∧ x ≤ 31 ∧ (c.lanes w.guard).getLsbD x.toNat = true then x.toNat else n

/-- REDUX over the lanes that take part, the identity in the others, by the tree of 04 R167. -/
def reduxAll (c : Ctx) (w : FmtA) : Res :=
  let op := w.mod.toNat % 8
  let ty := w.mod.toNat / 8 % 4
  reduxTree op ty ((List.range 32).map (fun l => ⟨if (c.lanes w.guard).getLsbD l then srcA c.grp w l 1 else reduxIdentity op ty, 0⟩))

/-- SHFL, VOTE.BALLOT and REDUX (04 R165-R167). -/
def crossRows : List AluRow :=
  let n := fun (w : FmtA) => if w.mod.getLsbD 2 then 2 else 1
  [{ aluRow .shfl (fun w => { d := .reg (n w), a := .reg (n w), b := .reg 1, modOk := decide (w.mod.toNat < 8), long := true }) n
       (fun _ _ _ _ => { val := 0 }) with
     value := fun c l w _ _ _ => { val := srcA c.grp w (shflSource c w l) (n w) } },
   { aluRow .vote (fun w => { d := .reg 1, a := .pred, modOk := w.mod == 3 }) (fun _ => 1) (fun _ _ _ _ => { val := 0 }) with
     value := fun c _ w _ _ _ => { val := (c.grp.readP w.a.toNat &&& c.lanes w.guard).toNat } },
   { aluRow .redux (fun w => { d := .reg 1, a := .reg 1, modOk := w.mod.toNat < 32 && w.mod.toNat % 8 < 6 && w.mod.toNat / 8 % 4 < 3
                                && (w.mod.toNat % 8 < 3 || w.mod.toNat / 8 % 4 != 2) })
       (fun w => if w.mod.toNat / 8 % 4 = 2 then 4 else 2) (fun _ _ _ _ => { val := 0 }) with
     value := fun c _ w _ _ _ => reduxAll c w }]

/-- A floating-point row: the types it accepts, whether it takes every rounding mode, its sources, its slots, those of
F64, and its value on one element (04 R142, R150). -/
def fpRow (instr : GroupRef → FmtA → Instr) (types : List Nat) (rnAll : Bool) (srcs s1 s64 : Nat)
    (op : FmtA → Fmt → Nat → Nat → Nat → FpRes) : AluRow :=
  aluRow instr (fpSpec · types rnAll srcs) (fun w => if fpType w = 1 then s64 else s1) (fun w => fpApply w (op w))

/-- Floating point (04 R150). -/
def floatRows : List AluRow :=
  [fpRow .fadd [0, 1, 2, 3] true 2 1 8 (fun w f a b _ => f.accumulate (fpRnd w) [f.decode a, f.decode b]),
   fpRow .fmul [0, 1, 2, 3] true 2 1 8 (fun w f a b _ => f.accumulate (fpRnd w) [(f.decode a).mul (f.decode b)]),
   fpRow .ffma [0, 1, 2, 3] true 3 1 8 (fun w f a b c => f.accumulate (fpRnd w) [(f.decode a).mul (f.decode b), f.decode c]),
   fpRow .fmin [0, 1, 2, 3] false 2 1 2 (fun _ f a b _ => f.minMax false a b),
   fpRow .fmax [0, 1, 2, 3] false 2 1 2 (fun _ f a b _ => f.minMax true a b),
   fpRow .frcp [0, 1] false 1 4 16 (fun _ f a _ _ => f.rcp (f.decode a)),
   fpRow .fdiv [0, 1] false 2 8 32 (fun _ f a b _ => f.div (f.decode a) (f.decode b)),
   fpRow .fsqrt [0, 1] false 1 8 32 (fun _ f a _ _ => f.sqrt (f.decode a)),
   fpRow .frsq [0] false 1 4 4 (fun _ f a _ _ => f.rsq (f.decode a)),
   fpRow .fex2 [0] false 1 4 4 (fun _ f a _ _ => f.ex2 (f.decode a)),
   fpRow .flg2 [0] false 1 4 4 (fun _ f a _ _ => f.lg2 (f.decode a)),
   fpRow .fsin [0] false 1 4 4 (fun _ f a _ _ => f.trig false (f.decode a)),
   fpRow .fcos [0] false 1 4 4 (fun _ f a _ _ => f.trig true (f.decode a)),
   fpRow .ftanh [0, 2, 3] false 1 4 4 (fun _ f a _ _ => f.tanh (f.decode a))]

/-- Conversions (05 R182-R185). -/
def convertRows : List AluRow :=
  [{ instr := .cvt, uses := fun nv w => aUses nv { w with c := 0 } (cvtSpec w), spec := cvtSpec, len := fun _ => 8,
     slots := fun w => if cvtDst w = 1 || cvtSrc w = 1 then 8 else 1,
     value := fun _ _ w a _ _ => cvtValue w (rndOf w.c.toNat) a },
   { aluRow .cvtRs cvtRsSpec (fun _ => 2) (fun _ _ _ _ => { val := 0 }) with
     len := fun _ => 8, value := fun c _ w a _ x => cvtValue w (rsMode c.grp.seed x 0) a },
   { aluRow .cvtPack packSpec (fun _ => 2) (fun _ _ _ _ => { val := 0 }) with
     len := fun _ => 8, value := fun c _ w => packValue w c.grp.seed },
   aluRow .cvtUnpack unpackSpec (fun _ => 2) (fun w a b _ =>
     match fmtOfCode (cvtSrc w) with
     | none => { val := 0 }
     | some x => let r := unpack (cvtSrc w) x (BitVec.ofNat 32 a) (BitVec.ofNat 32 b); { val := r.code, flags := r.flags })]

/-- An instruction that writes predicates: `bit` is the new value of p(n) in a lane that takes part, none where it stays,
and `flags` what the lane raises. -/
structure PredRow where
  instr : GroupRef → FmtA → Instr
  spec  : FmtA → ASpec
  slots : FmtA → Nat
  bit   : Ctx → FmtA → Nat → Nat → Option Bool
  flags : Ctx → FmtA → Nat → Word := fun _ _ _ => 0

/-- Every such row completes on every legal word. -/
def PredsComplete (rows : List PredRow) : Prop :=
  ∀ r ∈ rows, ∀ (s : State) (g : GroupRef) (c : Ctx) (w : FmtA),
    CanIssue s g c → Legal s c (aUses c.grp.nv w (r.spec w)) →
    ∃ t k, exec (r.instr g w) s = .next t ∧ OnlyGroup s c (r.slots w) t ∧ Moved c t k (c.path.pc + insLen w.lf)
      ∧ (∀ n l, l < 32 → (k.readP n).getLsbD l =
          if (c.lanes w.guard).getLsbD l then (r.bit c w n l).getD ((c.grp.readP n).getLsbD l) else (c.grp.readP n).getLsbD l)
      ∧ k.flags = (lanesOf (c.lanes w.guard)).foldl (fun f l => f ||| r.flags c w l) c.grp.flags
      ∧ { k with p := c.grp.p, flags := c.grp.flags } = c.grp

/-- The comparison of two sources, combined with p(c) (04 R149). -/
def cmpBit (w : FmtA) (n : Nat) (f : Nat → Nat → Bool × Word) (c : Ctx) (l : Nat) : Bool :=
  combine (cmpComb w) (cmpNeg w) (f (srcA c.grp w l n) (srcB c.grp w l n)).1 ((c.grp.readP w.c.toNat).getLsbD l)

/-- The outcome of VOTE.ALL, ANY and EQ over the lanes that take part (04 R166). -/
def voted (c : Ctx) (w : FmtA) : Bool :=
  let ls := lanesOf (c.lanes w.guard)
  let yes := fun l => (c.grp.readP w.a.toNat).getLsbD l
  match w.mod.toNat % 4 with
  | 0 => ls.all yes
  | 1 => ls.any yes
  | _ => ls.all yes || ls.all (fun l => !yes l)

/-- Compares and predicate instructions (04 R149), VOTE.ALL, ANY and EQ (04 R166). -/
def predRows : List PredRow :=
  let iregs := fun (w : FmtA) => if cmpType w ≥ 2 then 2 else 1
  let fregs := fun (w : FmtA) => if cmpType w = 1 then 2 else 1
  let ival := fun (w : FmtA) (x : Nat) => if cmpType w % 2 = 1 then signed (32 * iregs w) x else (x : Int)
  let fcmp := fun (w : FmtA) (a b : Nat) => (setpFmt (cmpType w)).compare (cmpOf w) a b
  [{ instr := .isetp, spec := fun w => cmpSpec w (iregs w) (decide (cmpOf w < 6)), slots := iregs,
     bit := fun c w n l => if n = w.d.toNat then some (cmpBit w (iregs w) (fun a b => (intCompare (cmpOf w) (ival w a) (ival w b), 0)) c l) else none },
   { instr := .fsetp, spec := fun w => cmpSpec w (fregs w) true, slots := fregs,
     bit := fun c w n l => if n = w.d.toNat then some (cmpBit w (fregs w) (fcmp w) c l) else none,
     flags := fun c w l => (fcmp w (srcA c.grp w l (fregs w)) (srcB c.grp w l (fregs w))).2 },
   { instr := .plut, spec := fun w => { d := .pred, a := .pred, b := .pred, c := .pred, modOk := decide (w.mod.toNat < 256) }, slots := fun _ => 1,
     bit := fun c w n l => if n = w.d.toNat then
         let b := fun (r : BitVec 8) => if (c.grp.readP r.toNat).getLsbD l then 1 else 0
         some (w.mod.toNat.testBit (b w.a + 2 * b w.b + 4 * b w.c))
       else none },
   { instr := .pmovV2p, spec := fun w => { a := .reg 1, modOk := w.mod == 0 }, slots := fun _ => 1,
     bit := fun c w n l => if n < 8 then some ((srcA c.grp w l 1).testBit n) else none },
   { instr := .vote, spec := fun w => { d := .pred, a := .pred, modOk := decide (w.mod.toNat < 3) }, slots := fun _ => 1,
     bit := fun c w n _ => if n = w.d.toNat then some (voted c w) else none }]

/-! ## Matrix work -/

/-- The group runs one path, and nothing of it is on the way to its registers or in its matrix unit. -/
def MatrixReady (s : State) (c : Ctx) : Prop :=
  c.grp.others = [] ∧ (s.dev.core c.coreKey).loads = [] ∧ (s.dev.core c.coreKey).outs = [] ∧ ∀ m ∈ s.dev.munit (c.key / 16), m.gkey ≠ c.key


/-- The work enters the unit's queue behind what is there, with the sources as they stand. -/
def Queued (s : State) (c : Ctx) (cmd : Instr) (slots : Nat) (work : MatWork) : Prop :=
  Gives s cmd (went ((s.dev.setGroup c.key c.grp).setMunit (c.key / 16) (s.dev.munit (c.key / 16) ++ [{ gkey := c.key, work := work }]))
    c slots (c.path.pc + 8))


/-- The `n` registers from `r` on exist in the group: an octet, a quad, or a quad and the scale register behind it (04 R127, 06 R198). -/
def Octet (c : Ctx) (r : BitVec 8) (n : Nat) : Prop := r.toNat % (n / 4 * 4) = 0 ∧ r.toNat + n ≤ c.grp.nv


/-- Element (r, k) of an 8-bit A operand, or (k, r) of B, as a signed number (06 R206). -/
def matByte (q : List Word) (r k : Nat) : Int :=
  signed 8 ((q.getD (k % 16 / 4 * 32 + 16 * (k / 16) + r) 0).toNat / 2 ^ (8 * (k % 4)) % 256)

/-! ## Tasks -/

/-- Task `t`, at queue `q` and index `i`, is released and of class `cls`: its engine, or the quarter of partition `p`,
works on it. -/
def Works (s : State) (q i cls p : Nat) (t : Task) : Prop := s.dev.working q i cls = some (p, t)

/-- The work of task `t` is over with a status and info; TASK_DONE reports it. -/
def Done (t : Task) (q i st info : Nat) (u : State) : Prop := u.dev.task q i = some { t with state := .done st info }

/-- Records that a ring has taken: written or waiting for space. -/
def ringTaken (r : DebugRing) : Nat := r.producer + r.pending.length

/-! ## Messages and lines at their home -/

/-- The oldest message of its channel from `src` to slice `n` of running partition `p` is `m`; `rest` is the network
without it. -/
def Arrives (s : State) (src : UnitId) (vc p n : Nat) (m : Msg) (rest : List Msg) : Prop :=
  s.dev.partOfSlice n = some p ∧ s.dev.partRuns p = true ∧ takeFirst src (.slice n) vc s.dev.net = some (m, rest) ∧ s.dev.inj.aim ≠ some (9, n)

/-- Line `l` of partition `p` stands in way `k` of its home slice `n` as `w`; nothing is in progress on it, and no request
waits at the slice. -/
def AtRest (d : Dev) (p n set k : Nat) (l : Line) (w : Way) : Prop :=
  d.place p l = some (n, set) ∧ (d.slice n).findWay set (d.homeWays p) l = some (k, w) ∧ (d.slice n).awaitOf l = none
    ∧ (d.slice n).isOpen l = false ∧ (d.slice n).waitq = []

/-- Way `k` of slice `n` holds line `l` with the given data, valid and dirty sectors and copies elsewhere. -/
def Holds (d : Dev) (p n set k : Nat) (l : Line) (data : LineData) (valid dirty : BitVec 4) (sharers : BitVec 8) (hostS hostE : Bool) : Prop :=
  ∃ w, (d.slice n).findWay set (d.homeWays p) l = some (k, w) ∧ w.data = data ∧ w.valid = valid ∧ w.dirty = dirty ∧ w.sharers = sharers
    ∧ w.hostS = hostS ∧ w.hostE = hostE ∧ (d.slice n).waitq = [] ∧ (d.slice n).awaitOf l = none

/-- The line has no copy outside its home. -/
def Alone1 (w : Way) : Prop := w.sharers = 0 ∧ w.hostS = false ∧ w.hostE = false

/-- A host request reaches device memory at `pa` of partition `p`, an ordinary line that stands at its home. -/
def HostReaches (s : State) (hpa p pa n set k : Nat) (w : Way) : Prop :=
  s.dev.memReq hpa = .go p pa ∧ s.dev.inSpill pa = false ∧ s.dev.inLog pa = false ∧ s.dev.inLog (pa / 128 * 128) = false
    ∧ AtRest s.dev p n set k ⟨false, pa / 128⟩ w

/-- Valid sectors of a half line. -/
def halfSectors (half : Nat) : BitVec 4 := if half = 0 then 3#4 else 12#4

/-! ## Seif -/

/-- The oldest waiting message of port `n`'s CTRL or BULK buffer is `m`, the port belongs to partition `p`, and no
injection is armed. -/
def SeifHead (s : State) (n : Nat) (bulk : Bool) (type p : Nat) (m : SeifMsg) : Prop :=
  s.dev.peekIn n bulk type = some m ∧ s.dev.partOfPort n = some p ∧ s.dev.inj.aim = none

/-- Collective `c` is the only one in progress, its engine runs, and it waits in its step for the ranks of its plan. -/
def OneColl (s : State) (c : Coll) : Prop :=
  s.dev.seif.colls = [c] ∧ s.dev.coresIssue = true ∧ c.began = true ∧ c.step < collSteps c.kind c.ranks.length

/-! ## Faults -/

/-- A command ends as a report of a detector's unit to the fault collector would (17 R494, R500). -/
def Reports (s : State) (cmd : Instr) (det unit : Nat) (detected : Bool) (detail : Nat) : Prop :=
  exec cmd s = exec (.faultReport { detector := det, unit := unit, detected := detected, detail := BitVec.ofNat 64 detail }) s

/-! ## Instances -/

/-- The oldest message of the foreman's mailbox is `m`, and `d` the device without it. -/
def ForemanMail (s : State) (m : MailMsg) (d : Dev) : Prop :=
  s.dev.mgmtOn = true ∧ ∃ rest, (s.dev.mailbox mbForeman).msgs = m :: rest ∧ d = s.dev.setMailbox mbForeman { s.dev.mailbox mbForeman with msgs := rest }

/-- The sender of `m` finds the return code `rc` in its acknowledge slot. -/
def Acked (t : State) (m : MailMsg) (rc : Nat) : Prop := (t.dev.mailbox mbForeman).ack (m.seq.toNat % 16) = m.seq.toNat + rc <<< 16 + 1 <<< 32

/-- What a completed reset leaves of instance `i` with slot `m`: it runs, its memory reads 0, its queues are FREE, both
mailboxes are empty; memory elsewhere is as it was (14 R430). -/
def WasReset (s t : State) (i : Nat) (m : ImgSlot) : Prop :=
  (t.dev.inst i).state = .running ∧ (t.dev.inst i).resets = ((s.dev.inst i).resets + 1) % 2 ^ 32 ∧ (t.dev.inst i).cmd = none
  ∧ (∀ a, Mem.read t.dev.mem a = if m.base ≤ a ∧ a < m.base + m.sizeGib * 2 ^ 30 then 0 else Mem.read s.dev.mem a)
  ∧ (∀ q, s.dev.ofFn i q = true → (t.dev.queue q).state = .free ∧ (t.dev.queue q).producer = 0 ∧ (t.dev.queue q).retired = 0)
  ∧ (∀ q, s.dev.ofFn i q = false → t.dev.queue q = s.dev.queue q)
  ∧ (t.dev.mailbox (mbToManager i)).msgs = [] ∧ (t.dev.mailbox (mbToTenant i)).msgs = []

/-! ## Power and start -/

/-- The control period's bounds on a rail: down by at most 25 mV, up by at most 10 mV, from 550 mV to its ceiling. -/
def RailMoves (now next ceiling : Nat) : Prop :=
  now ≤ next + 25 ∧ next ≤ now + 10 ∧ (550 ≤ now → 550 ≤ next) ∧ (550 ≤ ceiling → now ≤ ceiling → next ≤ ceiling)

/-- Every partition is gone: absent or DOWN, and FAULT_N is asserted. -/
def AllDown (t : State) : Prop :=
  t.dev.faults.faultN = true ∧ ∀ p, p < 4 → (t.dev.part p).state = .absent ∨ (t.dev.part p).state = .down

/-- A command begins a start from the device `d`. -/
def BeginsStart (s : State) (c : Instr) (env : StartEnv) (d : Dev) : Prop := Gives s c (d.beginStart s.fuses env)

/-! ## Secure commands -/

/-- The oldest message of the assayer's mailbox is `m`, of the tag and the length that its command has, and `d` the device
without it. -/
def SecureMail (s : State) (tag : Nat) (m : MailMsg) (d : Dev) : Prop :=
  s.dev.mgmtOn = true ∧ m.tag.toNat = tag ∧ (∀ n, secureLength tag = some n → m.len.toNat = n)
  ∧ ∃ rest, (s.dev.mailbox mbSecure).msgs = m :: rest ∧ d = s.dev.setMailbox mbSecure { s.dev.mailbox mbSecure with msgs := rest }

/-- A secure command ends with the device `d`, the return code `rc` in the sender's slot, and the fuses `u`. -/
def Secured (s : State) (c : Instr) (d : Dev) (m : MailMsg) (rc : Nat) (u : Fuses) : Prop :=
  exec c s = .next { s with dev := d.secureAck m rc, fuses := u }

/-- Fuses only blow: no fuse of `a` is undone in `b`, and what manufacture fixed stays. -/
structure FusesKept (a b : Fuses) : Prop where
  made    : { b with keyTagOk := a.keyTagOk, counter := a.counter, revoked := a.revoked, ownerDigest := a.ownerDigest, fieldReturn := a.fieldReturn } = a
  counter : a.counter ≤ b.counter
  revoked : ∀ k ∈ a.revoked, k ∈ b.revoked
  owner   : ∀ x, a.ownerDigest = some x → b.ownerDigest = some x
  returned : a.fieldReturn = true → b.fieldReturn = true
  key     : a.keyTagOk = false → b.keyTagOk = false

/-! ## Instruction words -/

/-- A format A word from its opcode and fields (04 R136). -/
def encodeA (op : Nat) (w : FmtA) : DWord :=
  BitVec.ofNat 64 (op % 1024 + w.guard.toNat <<< 10 + bitIf w.lf 15 + w.d.toNat <<< 16 + w.a.toNat <<< 24 + w.b.toNat <<< 32 + w.c.toNat <<< 40
    + w.mod.toNat <<< 48 + bitIf w.ib 59 + bitIf w.uf 60 + bitIf w.ka 61 + bitIf w.kb 62 + bitIf w.kc 63)

/-- A format I word (04 R139). -/
def encodeI (op : Nat) (w : FmtI) : DWord :=
  BitVec.ofNat 64 (op % 1024 + w.guard.toNat <<< 10 + bitIf w.lf 15 + w.d.toNat <<< 16 + w.a.toNat <<< 24 + w.imm16.toNat <<< 32
    + w.mod.toNat <<< 48 + bitIf w.z59 59 + bitIf w.uf 60 + bitIf w.ka 61 + w.z63.toNat <<< 62)

/-- A format M word (04 R140). -/
def encodeM (op : Nat) (w : FmtM) : DWord :=
  BitVec.ofNat 64 (op % 1024 + w.guard.toNat <<< 10 + bitIf w.lf 15 + w.d.toNat <<< 16 + w.a.toNat <<< 24 + w.off16.toNat <<< 32
    + w.width.toNat <<< 48 + w.sem.toNat <<< 51 + w.scope.toNat <<< 53 + w.hint.toNat <<< 56 + w.z58.toNat <<< 58 + bitIf w.uf 60
    + bitIf w.ka 61 + bitIf w.kd 62 + bitIf w.z63 63)

/-- A format B word (04 R141). -/
def encodeB (op : Nat) (w : FmtB) : DWord :=
  BitVec.ofNat 64 (op % 1024 + w.guard.toNat <<< 10 + bitIf w.lf 15 + w.toff.toNat <<< 16 + w.coff.toNat <<< 36 + w.link.toNat <<< 56)

/-- The opcodes of R146 whose words have format A. -/
def opcodesA : List (Nat × (GroupRef → FmtA → Instr)) :=
  [(0x001, .iadd), (0x002, .isub), (0x003, .imulLo), (0x004, .imulHi), (0x005, .imadLo), (0x006, .imin), (0x007, .imax), (0x008, .iabs), (0x009, .idp4),
   (0x041, .blut), (0x042, .shl), (0x043, .shr), (0x044, .sar), (0x045, .shf), (0x046, .popc), (0x047, .clz), (0x048, .brev), (0x049, .bfe), (0x04A, .bfi),
   (0x081, .isetp), (0x082, .fsetp), (0x083, .sel), (0x084, .plut), (0x085, .pmovP2v), (0x086, .pmovV2p),
   (0x0C1, .fadd), (0x0C2, .fmul), (0x0C3, .ffma), (0x0C4, .fmin), (0x0C5, .fmax), (0x0C6, .frcp), (0x0C7, .fdiv), (0x0C8, .fsqrt), (0x0C9, .frsq),
   (0x0CA, .fex2), (0x0CB, .flg2), (0x0CC, .fsin), (0x0CD, .fcos), (0x0CE, .ftanh), (0x101, .cvt), (0x102, .cvtPack), (0x103, .cvtUnpack), (0x105, .cvtRs),
   (0x141, .mov), (0x186, .bcopyG2l), (0x187, .bcopyL2g), (0x188, .bwait), (0x1C1, .atomAdd), (0x1C2, .atomMin), (0x1C3, .atomMax), (0x1C4, .atomAnd),
   (0x1C5, .atomOr), (0x1C6, .atomXor), (0x1C7, .atomExch), (0x1C8, .atomCas), (0x201, .redAdd), (0x202, .redMin), (0x203, .redMax), (0x204, .rclose),
   (0x241, .fence), (0x280, .nop), (0x286, .sync), (0x287, .syncBlock), (0x288, .syncCluster), (0x289, .yield), (0x28A, .exit), (0x2C1, .shfl),
   (0x2C2, .vote), (0x2C3, .redux), (0x301, .mmaF8F32), (0x302, .mmaI8S32), (0x303, .mmaBf16F32), (0x304, .mmaF16F32), (0x305, .mmaMxF32),
   (0x306, .mmaIx4F32), (0x307, .mmaI4S32), (0x310, .mms), (0x311, .accLd), (0x312, .accSt), (0x313, .accZero), (0x314, .smxMax), (0x315, .smxSum)]

/-- Those of formats I, M and B. -/
def opcodesI : List (Nat × (GroupRef → FmtI → Instr)) := [(0x142, .movSr), (0x143, .movTosr), (0x341, .bkpt)]
def opcodesM : List (Nat × (GroupRef → FmtM → Instr)) :=
  [(0x181, .ldLocal), (0x182, .stLocal), (0x183, .ldGlobal), (0x184, .stGlobal), (0x185, .ldConst), (0x189, .prefetchGlobal)]
def opcodesB : List (Nat × (GroupRef → FmtB → Instr)) := [(0x281, .bra), (0x282, .braI), (0x283, .call), (0x284, .callI), (0x285, .ret)]

/-! ## Fuses -/

/-- Fuses that a part can hold (18 R514, R517): a count of the 128, and indices revoked but one at least. -/
def FusesLegal (u : Fuses) : Prop :=
  u.counter ≤ 128 ∧ u.revoked.Nodup ∧ (∀ k ∈ u.revoked, k < 4) ∧ u.revoked.length ≤ 3

end Sys2Proof
end

