-- ==== Sys2Proof/Certificates/Slice0/Obligations.lean ====
section
/-! DEFINITION. The statements for the provers. -/

open Sys2Proof Sys2Proof.Machine

/-! ### The block and its queue of commands -/

/-- A step on a queue with `c` in front runs `c` with the queue's rest.
On an empty queue the block idles (the model's choice: log entry 3). -/
def Obligations.StepRunsFront : Prop :=
  (
  ∀ (s : State) (c : Instr) (rest : List Instr), s.pending = c :: rest → step s = exec c { s with pending := rest })
  ∧ (
  ∀ s : State, s.pending = [] → step s = .next s)

/-! ### Instructions that compute -/

/-- Integer arithmetic (04 R147): every form completes with its result in every lane that takes part, and its frame.
Logic, shifts, bit fields, MOV, SEL and PMOV.P2V (04 R148, R149) complete likewise.
A wrapped 32-bit sum is the machine sum of the words, and a wrapped product its low half (04 R147).
With .SAT a result stays in the type's range (04 R147).
Settling a group after an instruction (03 R109-R111) moves paths, points and the stamp of waiting paths, and nothing
else: no register, flag, predicate or special register. -/
def Obligations.IntegerAndLogic : Prop :=
  (
  RowsComplete integerRows)
  ∧ (
  RowsComplete logicRows)
  ∧ (
  ∀ (w : FmtA) (a b : Word), w.mod.toNat < 2 →
    (tyResult w false (tyVal w a.toNat + tyVal w b.toNat)).val = (a + b).toNat
    ∧ (tyResult w false (tyVal w a.toNat - tyVal w b.toNat)).val = (a - b).toNat
    ∧ (tyResult w false (tyVal w a.toNat * tyVal w b.toNat)).val = (a * b).toNat)
  ∧ (
  ∀ (w : FmtA) (v : Int),
    let n := tyBits w
    let r := (tyResult w true v).val
    (tySigned w = false → (v < 0 → r = 0) ∧ (v > (2 ^ n : Nat) - 1 → r = 2 ^ n - 1) ∧ (0 ≤ v → v ≤ (2 ^ n : Nat) - 1 → (r : Int) = v))
    ∧ (tySigned w = true → (v < -(2 ^ (n - 1) : Nat) → r = 2 ^ (n - 1)) ∧ (v > (2 ^ (n - 1) : Nat) - 1 → r = 2 ^ (n - 1) - 1)
        ∧ (-(2 ^ (n - 1) : Nat) ≤ v → v ≤ (2 ^ (n - 1) : Nat) - 1 → signed n r = v)))
  ∧ (
  ∀ (g : Group) (pc : Nat),
    { (g.goto pc).settled with paths := g.paths, points := g.points, clock := g.clock } = g)

/-- Floating point (04 R150) completes likewise, with the flags of every lane raised.
Conversions (05 R182-R185) complete likewise. -/
def Obligations.FloatAndConvert : Prop :=
  (
  RowsComplete floatRows)
  ∧ (
  RowsComplete convertRows)

/-- SHFL, VOTE.BALLOT and REDUX (04 R165-R167) complete likewise.
ISETP, FSETP, PLUT, PMOV.V2P and VOTE.ALL, ANY, EQ (04 R149, R166) complete: the predicate bits of the lanes that
take part are the results, every other bit and every register stay. -/
def Obligations.LanesAndPredicates : Prop :=
  (
  RowsComplete crossRows)
  ∧ (
  PredsComplete predRows)

/-- An illegal encoding raises a job fault of the illegal-instruction kind whether or not its guard holds, and has no
other effect (04 R144).
An instruction that names a register an access in flight is still to write waits: the command changes nothing (04
R129). -/
def Obligations.IllegalOrInterlocked : Prop :=
  (
  (∀ r ∈ integerRows ++ logicRows ++ floatRows ++ convertRows, ∀ (s : State) (g : GroupRef) (c : Ctx) (w : FmtA),
    CanIssue s g c → r.uses c.grp.nv w = none → Gives s (r.instr g w) (s.dev.jobFault c.part causeIllegal c.die))
  ∧ (∀ (s : State) (g : GroupRef) (c : Ctx) (w : FmtA), CanIssue s g c → c.grp.nv ≤ w.d.toNat → w.uf = false →
      Gives s (.iadd g w) (s.dev.jobFault c.part causeIllegal c.die)))
  ∧ (
  ∀ r ∈ integerRows ++ logicRows ++ floatRows ++ convertRows, ∀ (s : State) (g : GroupRef) (c : Ctx) (w : FmtA) (us : List Use),
    CanIssue s g c → r.uses c.grp.nv w = some us → s.dev.interlocked c us = true → Gives s (r.instr g w) s.dev)

/-- MOV.SR and MOV.TOSR (04 R130, R131): the special register goes to every lane that takes part; sr_seed takes the value
of the highest lane; sr_flags loses the bits written as 1, also those that matrix work issued before would raise (R132).
The values of the special registers that name places (04 R130, 03 R100). -/
def Obligations.SpecialRegisters : Prop :=
  (
  (∀ (s : State) (g : GroupRef) (c : Ctx) (w : FmtI) (n : Nat), CanIssue s g c → srRegs w.imm16.toNat = some n →
    Legal s c (iUses c.grp.nv w (some n) none) → (srCovered w.imm16.toNat = true ∨ s.dev.trapUncovered c.part = false) →
    (w.imm16 = 0x20 → s.dev.matrixBusy c.key = false) →
    Gives s (.movSr g w) (went (s.dev.setGroup c.key ((c.takers w.guard w.uf).foldl (fun (h : Group) l =>
      if w.uf then h.writeU w.d.toNat (BitVec.ofNat 64 (srValue s.dev c l w.imm16.toNat % 2 ^ (32 * n)))
      else h.writeVs w.d.toNat l n (srValue s.dev c l w.imm16.toNat)) c.grp)) c 1 (c.path.pc + 8)))
  ∧ (∀ (s : State) (g : GroupRef) (c : Ctx) (w : FmtI) (top : Nat), CanIssue s g c → w.imm16 = 0x21 →
      Legal s c (iUses c.grp.nv w none (some 2)) → (c.takers w.guard w.uf).getLast? = some top →
      Gives s (.movTosr g w) (went (s.dev.setGroup c.key { c.grp with
        seed := BitVec.ofNat 64 (srcReg c.grp top (w.uf || w.ka) w.a.toNat 2) }) c 1 (c.path.pc + 8)))
  ∧ (∀ (s : State) (g : GroupRef) (c : Ctx) (w : FmtI), CanIssue s g c → w.imm16 = 0x20 → s.dev.munit (c.key / 16) = [] →
      Legal s c (iUses c.grp.nv w none (some 1)) → c.takers w.guard w.uf ≠ [] →
      ∃ t, Next s (.movTosr g w) t ∧ Moved c t { c.grp with
          flags := c.grp.flags &&& ~~~(flagOnes c.grp w (c.takers w.guard w.uf) &&& flagsMask) } (c.path.pc + 8)
        ∧ (∀ k, k ≠ c.key → t.dev.group k = s.dev.group k) ∧ (∀ k, t.dev.munit k = s.dev.munit k) ∧ t.dev.mem = s.dev.mem))
  ∧ (
  ∀ (d : Dev) (c : Ctx) (l : Nat), srValue d c l 0x00 = l ∧ srValue d c l 0x01 = c.grp.num ∧ srValue d c l 0x02 = 32 * c.grp.num + l
    ∧ srValue d c l 0x03 = (32 * c.grp.num + l) % c.run.dx ∧ srValue d c l 0x04 = (32 * c.grp.num + l) / c.run.dx % c.run.dy
    ∧ srValue d c l 0x06 = c.run.dx ∧ srValue d c l 0x0C = c.run.gx ∧ srValue d c l 0x10 = c.run.cx * c.run.cy * c.run.cz
    ∧ srValue d c l 0x12 = c.sub ∧ srValue d c l 0x14 = d.time ∧ srValue d c l 0x20 = c.grp.flags.toNat
    ∧ srValue d c l 0x21 = c.grp.seed.toNat ∧ srValue d c l 0x23 = c.grp.nv
    ∧ srRegs 0x15 = none ∧ srRegs 0x1F = none ∧ srRegs 0x24 = none)

/-! ### Control -/

/-- NOP and YIELD of a group with one path, and YIELD with one other path ready, which then runs while the path that
yielded waits (03 R111, 04 R163).
BREAK_AWAY: a parked path that has waited for 1,024 backward branches and YIELDs of the others becomes ready at its
point without it (03 R113). -/
def Obligations.NopYieldBreakAway : Prop :=
  (
  (∀ (s : State) (g : GroupRef) (c : Ctx) (w : FmtA), CanIssue s g c → Legal s c (aUses c.grp.nv w { modOk := w.mod == 0 }) →
    Gives s (.nop g w) (went (s.dev.setGroup c.key c.grp) c 1 (c.path.pc + 8))
    ∧ (Alone c → c.lanes w.guard ≠ 0 → Gives s (.yield g w)
        ((s.dev.setGroup c.key { c.grp with paths := [{ c.path with pc := c.path.pc + 8 }], spins := c.grp.spins + 1 }).slotsUsed c 1))
    ∧ (∀ (q : Path) (n : Nat), c.grp.paths = [c.path, q] → c.path.points = [] → q.points = [] → c.grp.points = [] → q.status = .ready n →
        n < c.grp.clock → c.lanes w.guard ≠ 0 → Gives s (.yield g w) ((s.dev.setGroup c.key { c.grp with
          paths := [{ q with status := .running }, { c.path with pc := c.path.pc + 8, status := .ready c.grp.clock }],
          spins := c.grp.spins + 1, clock := c.grp.clock + 1 }).slotsUsed c 1))))
  ∧ (
  ∀ (s : State) (g : GroupRef) (k : Group) (p : Nat) (r q : Path) (n t pc : Nat),
    s.dev.group (gkeyOf g) = some k → s.dev.partOfStack g.die = some p → s.dev.partRuns p = true →
    k.paths = [r, q] → r.status = .running → r.points = [t] → k.points = [(t, pc)] → r.pc ≠ pc →
    q.status = .parked n → q.points = [t] → n + 1024 ≤ k.spins →
    Gives s (.breakAway g) (s.dev.setGroup (gkeyOf g) { k with
      paths := [r, { q with pc := pc, points := [], status := .ready k.clock }], clock := k.clock + 1 }))

/-- BRA and CALL of a group with one path (03 R107, 04 R161, R162): no lane takes it, all take it, or some take it, when
the path splits, both parts carry the recorded point, and the lanes that fall through run on first. CALL writes the
return address to the link pair of the lanes that take it.
BRA.I, CALL.I and RET of a group with one path whose lanes all hold one legal target; a target that is no multiple of
8 or has bits above its 56 raises an address-kind fault (04 R161, R162). -/
def Obligations.Branches : Prop :=
  (
  ∀ (s : State) (g : GroupRef) (c : Ctx) (w : FmtB) (link : Bool), CanIssue s g c → Alone c →
    Legal s c (bUses c.grp.nv w false link true) →
    let cmd : Instr := if link then .call g w else .bra g w
    let lanes := c.lanes w.guard
    let next := c.path.pc + insLen w.lf
    let target := directTarget w c.path.pc
    let k := if link then linkLanes c.grp w lanes next else c.grp
    let spins := c.grp.spins + (if target ≤ c.path.pc then 1 else 0)
    let rest := c.path.mask &&& ~~~lanes
    (lanes = 0 → Gives s cmd ((s.dev.setGroup c.key { k with paths := [{ c.path with pc := next }] }).slotsUsed c 1))
    ∧ (lanes ≠ 0 → rest = 0 →
        Gives s cmd ((s.dev.setGroup c.key { k with paths := [{ c.path with pc := target }], spins := spins }).slotsUsed c 1))
    ∧ (lanes ≠ 0 → rest ≠ 0 → w.coff = 0 → Gives s cmd ((s.dev.setGroup c.key { k with
        paths := [{ c.path with mask := rest, pc := next }, { mask := lanes, pc := target, points := [], status := .ready c.grp.clock }],
        clock := c.grp.clock + 1, spins := spins }).slotsUsed c 1))
    ∧ (∀ pt, lanes ≠ 0 → rest ≠ 0 → coffPoint w c.path.pc = some pt → pt ≠ next → pt ≠ target → Gives s cmd ((s.dev.setGroup c.key { k with
        paths := [{ c.path with mask := rest, pc := next, points := [c.grp.nextPoint] },
                  { mask := lanes, pc := target, points := [c.grp.nextPoint], status := .ready c.grp.clock }],
        points := [(c.grp.nextPoint, pt)], nextPoint := c.grp.nextPoint + 1,
        clock := c.grp.clock + 1, spins := spins }).slotsUsed c 1)))
  ∧ (
  ∀ (s : State) (g : GroupRef) (c : Ctx) (w : FmtB) (link : Bool) (cmd : Instr), CanIssue s g c →
    Legal s c (bUses c.grp.nv w true link false) →
    (cmd = .callI g w ∧ link = true ∨ cmd = .braI g w ∧ link = false ∨ cmd = .ret g w ∧ link = false) →
    let lanes := c.lanes w.guard
    let k := if link then linkLanes c.grp w lanes (c.path.pc + 8) else c.grp
    (∀ target, Alone c → lanes = c.path.mask → lanes ≠ 0 → target % 8 = 0 → target < 2 ^ 56 →
      (∀ l ∈ lanesOf lanes, indirectTarget c.grp w l = target) →
      Gives s cmd ((s.dev.setGroup c.key { k with
        paths := [{ c.path with pc := target }]
        spins := c.grp.spins + (if target ≤ c.path.pc then 1 else 0) }).slotsUsed c 1))
    ∧ (∀ l ∈ lanesOf lanes, (indirectTarget c.grp w l % 8 ≠ 0 ∨ 2 ^ 56 ≤ indirectTarget c.grp w l) →
        Gives s cmd (s.dev.jobFault c.part causeAddress c.die)))

/-- EXIT of a group with one path (03 R91, 04 R163): lanes that exit leave the path; when none is left and the unit holds
no work of the group, the group leaves its slot.
SYNC whose mask the path covers goes on at once; a SYNC that names lanes of another path holds the path (03 R110, 04
R163).
SYNC.BLOCK and SYNC.CLUSTER (03 R92, R98): the path is held; the barrier of a block, or a cluster, completes when
every lane that has not exited is held at one. For a block whose one group is alone it completes at once; while another
group of the block has a path elsewhere, the path stays held. -/
def Obligations.ExitSyncAndBarriers : Prop :=
  (
  ∀ (s : State) (g : GroupRef) (c : Ctx) (w : FmtA), CanIssue s g c → Alone c → Legal s c (aUses c.grp.nv w { modOk := w.mod == 0 }) →
    let lanes := c.lanes w.guard
    let rest := c.path.mask &&& ~~~lanes
    (rest ≠ 0 → ∃ t, Next s (.exit g w) t ∧ t.dev.group c.key = some
        { c.grp with exited := c.grp.exited ||| lanes, paths := [{ c.path with mask := rest, pc := c.path.pc + 8 }] }
        ∧ t.dev.mem = s.dev.mem)
    ∧ (rest = 0 → (∀ m ∈ s.dev.munit (c.key / 16), m.gkey ≠ c.key) →
        ∃ t, Next s (.exit g w) t ∧ t.dev.group c.key = none ∧ t.dev.mem = s.dev.mem))
  ∧ (
  ∀ (s : State) (g : GroupRef) (c : Ctx) (w : FmtA), CanIssue s g c → c.lanes w.guard = c.path.mask → c.path.mask ≠ 0 →
    let all := w.mod.getLsbD 0
    Legal s c (aUses c.grp.nv w { a := if all then .unused else .reg 1, modOk := decide (w.mod.toNat < 2) }) →
    let mask : Lanes := if all then BitVec.allOnes 32 else BitVec.ofNat 32 (srcA c.grp w (lowLane c.path.mask) 1)
    (Alone c → mask &&& ~~~c.path.mask &&& ~~~c.grp.exited = 0 → Gives s (.sync g w) ((s.dev.setGroup c.key { c.grp with
      paths := [{ c.path with pc := c.path.pc + 8 }], clock := c.grp.clock + 1 }).slotsUsed c 1))
    ∧ (∀ (q : Path) (n : Nat), c.grp.paths = [c.path, q] → c.path.points = [] → q.points = [] → c.grp.points = [] → q.status = .ready n →
        mask &&& q.mask &&& ~~~c.path.mask &&& ~~~c.grp.exited ≠ 0 → Gives s (.sync g w) ((s.dev.setGroup c.key { c.grp with
          paths := [{ c.path with status := .heldSync mask }, { q with status := .running }] }).slotsUsed c 1)))
  ∧ (
  ∀ (s : State) (g : GroupRef) (c : Ctx) (w : FmtA), CanIssue s g c → Alone c → Legal s c (aUses c.grp.nv w { modOk := w.mod == 0 }) →
    c.lanes w.guard = c.path.mask → c.path.mask ≠ 0 → s.dev.localPending c.key = false →
    (s.dev.unperformed c c.path.mask 1 = false → s.dev.groupsOf c.coreKey c.grp.block = [(c.key, c.grp)] →
      ∃ t, Next s (.syncBlock g w) t ∧ t.dev.group c.key = some
        { c.grp with paths := [{ c.path with pc := c.path.pc + 8 }], clock := c.grp.clock + 1 } ∧ t.dev.mem = s.dev.mem)
    ∧ (∀ x ∈ s.dev.groupsOf c.coreKey c.grp.block, x.1 ≠ c.key → (∃ p ∈ x.2.paths, p.status = .running) →
        (s.dev.unperformed c c.path.mask 1 = false →
          Gives s (.syncBlock g w) ((s.dev.setGroup c.key { c.grp with paths := [{ c.path with status := .heldBlock }] }).slotsUsed c 1))
        ∧ (s.dev.unperformed c c.path.mask 2 = false → (s.dev.blockOf c.key c.grp).isSome →
          Gives s (.syncCluster g w) ((s.dev.setGroup c.key { c.grp with paths := [{ c.path with status := .heldCluster }] }).slotsUsed c 1))))

/-! ### Loads, stores, atomics, reductions, copies -/

/-- LD.LOCAL and ST.LOCAL (04 R151, R152, R154): every lane that takes part reads, or writes, the bytes at base plus offset
in its block's local memory, in ascending lane order; a misaligned or invalid address raises an address-kind fault.
A place in local memory reads back what was written, and every other byte of the block stays (03 R96).
Of several lanes that store to one byte the last, which is the highest, wins; bytes no lane names are not in the mask
(04 R154). -/
def Obligations.LocalAccesses : Prop :=
  (
  ∀ (s : State) (g : GroupRef) (c : Ctx) (w : FmtM), CanIssue s g c →
    let n := widthBytes w.width
    let ls := localLanes c w
    let lanes := c.accessLanes w.guard w.uf
    let slots := if w.uf then 1 else waves (ls.map (fun x => x.2)) n
    let pc := c.path.pc + insLen w.lf
    (Legal s c (mUses c.grp.nv w 1 true true (loadSem w && w.hint == 0)) →
      (s.dev.localOk c ls n = true → ls ≠ [] → s.dev.mustWait c lanes false w.sem.toNat w.scope.toNat = false →
        Gives s (.ldLocal g w) (went ((s.dev.setGroup c.key (ls.foldl (fun (h : Group) x => match s.dev.localPlace c x.2 n with
          | some p => writeLoaded h w.uf w.d.toNat x.1 w.width.toNat (s.dev.readLoc p n)
          | none => h) c.grp)).acquire c.coreKey w.sem.toNat w.scope.toNat) c slots pc))
      ∧ (s.dev.localOk c ls n = false → Gives s (.ldLocal g w) (s.dev.jobFault c.part causeAddress c.die)))
    ∧ (Legal s c (mUses c.grp.nv w 1 true false (storeSem w && w.hint == 0)) →
      (s.dev.localOk c ls n = true → s.dev.mustWait c lanes true w.sem.toNat w.scope.toNat = false → s.dev.localPending c.key = false →
        Gives s (.stLocal g w) (went (ls.foldl (fun (e : Dev) x => match s.dev.localPlace c x.2 n with
          | some p => e.writeLoc p n (mData c.grp w x.1)
          | none => e) s.dev) c slots pc))
      ∧ (s.dev.localOk c ls n = false → Gives s (.stLocal g w) (s.dev.jobFault c.part causeAddress c.die))))
  ∧ (
  ∀ (b : Block) (off n v : Nat), (b.writeLoc off n v).readLoc off n = v % 256 ^ n
    ∧ (∀ a, a < off ∨ off + n ≤ a → (b.writeLoc off n v).readLoc a 1 = b.readLoc a 1))
  ∧ (
  ∀ (l : Line) (n : Nat) (data : Nat → Nat) (ts : List (Nat × Xl)) (lane pa b : Nat), n ≤ 16 → pa / 128 = l.n → pa % 128 + n ≤ 128 → l.host = false →
    b < n →
    let r := storeLine l n data (ts ++ [(lane, .dev pa)])
    r.1.getLsbD (pa % 128 + b) = true ∧ bytesAt r.2.toNat (pa % 128 + b) 1 = bytesAt (data lane) b 1)

/-- LD.GLOBAL (07 R236): served at once from the L1 when it holds every line and the scope is GROUP or BLOCK; else, for one
line homed in another stack, one read request leaves for the near slice and the load is in flight with its lanes.
Data that reaches a load in flight (08 R263): every lane that waits for the line gets its bytes, and a load that waits
for nothing more is over.
ST.GLOBAL (07 R236, R238): every line addressed gets one WR with the bytes of its lanes, a valid L1 copy is updated, and
the store is in flight; the registers stay. -/
def Obligations.GlobalAccesses : Prop :=
  (
  ∀ (s : State) (g : GroupRef) (c : Ctx) (w : FmtM) (d1 : Dev) (ts : List (Nat × Xl)), CanIssue s g c →
    Legal s c (mUses c.grp.nv w 2 true true (loadSem w)) → s.dev.places c.part c.run.fn false true (widthBytes w.width) (globalLanes c w) = .ok d1 ts →
    d1 = s.dev → ts ≠ [] → (∀ t ∈ ts, t.2.line.isSome) →
    let n := widthBytes w.width
    let co := s.dev.core c.coreKey
    s.dev.mustWait c (c.accessLanes w.guard w.uf) false w.sem.toNat w.scope.toNat = false → co.loads = [] → co.outs = [] →
    (w.scope.toNat ≤ 1 → w.sem = 0 → (∀ t ∈ ts, (s.dev.loadNow co true n t.2).isSome) →
      ∃ t, Next s (.ldGlobal g w) t ∧ t.dev.mem = s.dev.mem ∧ t.dev.net = s.dev.net ∧
        Moved c t (ts.foldl (fun (h : Group) x =>
          writeLoaded h w.uf w.d.toNat x.1 w.width.toNat ((s.dev.loadNow co true n x.2).getD 0)) c.grp) (c.path.pc + insLen w.lf))
    ∧ (∀ (l : Line) (secs : BitVec 4) (home m : Nat) (set : Nat), 2 ≤ w.scope.toNat → linesOf n ts = [(l, secs)] →
        s.dev.place c.part l = some (home, set) → home ≠ 16 * c.die + home % 16 →
        (s.dev.slice (16 * c.die + home % 16)).findReplica set l = none →
        (s.dev.slice (16 * c.die + home % 16)).miss = [] → (s.dev.slice (16 * c.die + home % 16)).freeEntry = some m →
        ∃ t, Next s (.ldGlobal g w) t ∧ t.dev.mem = s.dev.mem ∧ Moved c t c.grp (c.path.pc + insLen w.lf)
          ∧ (∃ body, t.dev.net = s.dev.net ++ [{ src := .slice (16 * c.die + home % 16), dst := .slice home, rid := 0, acct := c.run.acct, body := body }]
              ∧ (body = .rdS l secs w.hint.toNat ∨ body = .rdO l secs w.hint.toNat))
          ∧ ∃ x, (t.dev.core c.coreKey).loads = [x] ∧ x.gkey = c.key ∧ x.uni = w.uf ∧ x.dst = w.d.toNat ∧ x.width = w.width.toNat
              ∧ x.waiting.map (fun y => (y.1, y.2.2)) = ts.map (fun t => (t.1, t.2.pa))))
  ∧ (
  ∀ (d : Dev) (die core : Nat) (x : PendLoad) (l : Line) (data : LineData) (k : Group),
    (d.core (coreKey die core)).loads = [x] → d.group x.gkey = some k →
    (∀ y ∈ x.waiting, y.2.1 = l.host ∧ y.2.2 / 128 = l.n) → x.waiting ≠ [] →
    let e := d.deliver (.load die core x.id) l 15#4 data
    (e.core (coreKey die core)).loads = []
    ∧ e.group x.gkey = some (x.waiting.foldl (fun (h : Group) y =>
        writeLoaded h x.uni x.dst y.1 x.width (lineBytes data (y.2.2 % 128) (widthBytes (BitVec.ofNat 3 x.width)))) k)
    ∧ e.mem = d.mem)
  ∧ (
  ∀ (s : State) (g : GroupRef) (c : Ctx) (w : FmtM) (d1 : Dev) (ts : List (Nat × Xl)), CanIssue s g c →
    Legal s c (mUses c.grp.nv w 2 true false (storeSem w)) → s.dev.places c.part c.run.fn true true (widthBytes w.width) (globalLanes c w) = .ok d1 ts →
    d1.partRuns c.part = true → (∀ t ∈ ts, t.2.line.isSome) →
    let n := widthBytes w.width
    let ls := linesOf n ts
    let lanes := c.accessLanes w.guard w.uf
    d1.mustWait c lanes true w.sem.toNat w.scope.toNat = false → (∀ x ∈ ls, (d1.core c.coreKey).writeBlocked x.1 = false) →
    Gives s (.stGlobal g w) (went (ls.foldl (fun (e : Dev) x =>
        let (m, data) := storeLine x.1 n (mData c.grp w) ts
        (e.setCore c.coreKey ((e.core c.coreKey).l1Update x.1.host x.1.n m data)).sendAccess c lanes x.1 .store w.sem.toNat w.scope.toNat none
          (.wr x.1 m data w.hint.toNat)) d1) c (lineSlots w.uf ls) (c.path.pc + insLen w.lf)))

/-- PREFETCH.GLOBAL, LD.CONST, BWAIT and FENCE complete (07 R236, 04 R153, R156, R160). -/
def Obligations.OtherAccesses : Prop :=
  (∀ (s : State) (g : GroupRef) (c : Ctx) (w : FmtM) (d1 : Dev) (ts : List (Nat × Xl)), CanIssue s g c →
    Legal s c (mUses c.grp.nv w 2 false true (w.sem == 0 && w.scope == 0)) → s.dev.places c.part c.run.fn false false 1 (globalLanes c w) = .ok d1 ts →
    d1.partRuns c.part = true → (∀ x ∈ linesOf 1 ts, ((d1.core c.coreKey).l1Hit x.1.host x.1.n 15#4).isSome) →
    Gives s (.prefetchGlobal g w) (went d1 c 1 (c.path.pc + insLen w.lf)))
  ∧ (∀ (s : State) (g : GroupRef) (c : Ctx) (w : FmtM) (d1 : Dev) (vs : List (Nat × Nat)), CanIssue s g c →
    Legal s c (mUses c.grp.nv w 2 true true (w.sem == 0 && w.scope == 0 && w.hint == 0)) →
    s.dev.constReads c (widthBytes w.width) (globalLanes c w) = (d1, true, some vs) → d1.partRuns c.part = true → w.ka = true →
    Gives s (.ldConst g w) (went (d1.setGroup c.key (vs.foldl (fun (h : Group) x =>
      writeLoaded h w.uf w.d.toNat x.1 w.width.toNat x.2) c.grp)) c 1 (c.path.pc + insLen w.lf)))
  ∧ (∀ (d : Dev) (c : Ctx) (a n : Nat), 0 < n → a % n = 0 → a + n ≤ 0x1000 → d.constRead c a n = .ok d (bytesAt c.run.cblock a n))
  ∧ (∀ (s : State) (g : GroupRef) (c : Ctx) (w : FmtA) (lane : Nat) (x : LocPlace), CanIssue s g c →
    Legal s c (aUses c.grp.nv w { a := .reg 1, b := .reg 2, modOk := w.mod == 0, long := true, uni := true, onlyUni := true }) →
    c.takers w.guard true = [lane] → (c.grp.readU w.a.toNat).toNat % 2 ^ 32 % 8 = 0 →
    s.dev.localPlace c ((c.grp.readU w.a.toNat).toNat % 2 ^ 32) 8 = some x →
    (srcB c.grp w lane 2 ≤ s.dev.readLoc x 8 → Gives s (.bwait g w) (went s.dev c 1 (c.path.pc + insLen w.lf)))
    ∧ (s.dev.readLoc x 8 < srcB c.grp w lane 2 → Gives s (.bwait g w) s.dev))
  ∧ (∀ (s : State) (g : GroupRef) (c : Ctx) (w : FmtA), CanIssue s g c →
    Legal s c (aUses c.grp.nv w { modOk := decide (w.mod.toNat / 4 < 5) && w.mod.toNat % 4 != 0 }) → c.lanes w.guard ≠ 0 →
    let sem := w.mod.toNat % 4
    let scope := w.mod.toNat / 4
    s.dev.localPending c.key = false →
    (s.dev.unperformed c (c.lanes w.guard) (if sem ≥ 2 then scope else 0) = false →
      Gives s (.fence g w) (went (s.dev.acquire c.coreKey sem scope) c 1 (c.path.pc + 8)))
    ∧ (s.dev.unperformed c (c.lanes w.guard) (if sem ≥ 2 then scope else 0) = true → Gives s (.fence g w) s.dev))

/-- The eight atomics (04 R157, R158): in local memory they are performed at once in ascending lane order; in global
memory each line addressed gets one ATM with its lanes' operands.
The operations on integers (04 R157): a wrapped sum, the extremes of the type, the logic operations, the exchange, and
compare-and-swap, which writes b when the old value equals c.
Lanes of one atomic that name one address are performed in ascending order, each seeing the result of the lanes below
it (04 R158): two additions add both, and the second returns the sum of the first. -/
def Obligations.AtomicsComplete : Prop :=
  (
  ∀ (s : State) (g : GroupRef) (c : Ctx) (w : FmtA) (cmd : GroupRef → FmtA → Instr) (op : AtomOp), CanIssue s g c →
    (cmd, op) ∈ [((.atomAdd : GroupRef → FmtA → Instr), AtomOp.add), (.atomMin, .min), (.atomMax, .max), (.atomAnd, .and), (.atomOr, .or),
      (.atomXor, .xor), (.atomExch, .exch), (.atomCas, .cas)] →
    Legal s c (aUses c.grp.nv w (atomSpec op w)) → (atomCovered op w = true ∨ s.dev.trapUncovered c.part = false) →
    let n := atomWidth (atomType w)
    let ls := atomAddrs c w
    let lanes := c.accessLanes w.guard w.uf
    let pc := c.path.pc + insLen w.lf
    (atomLocal w = true → ls ≠ [] → s.dev.localOk c ls n = true → s.dev.mustWait c lanes true (atomSem w) (atomScope w) = false →
      s.dev.localPending c.key = false →
      Gives s (cmd g w) (went ((s.dev.atomLocalRun c op w ls).acquire c.coreKey (atomSem w) (atomScope w)) c
        (if w.uf then 1 else max 1 (ls.map (fun x => x.2 / 128)).eraseDups.length) pc))
    ∧ (∀ d1 ts, atomLocal w = false → s.dev.places c.part c.run.fn true false n ls = .ok d1 ts → d1.partRuns c.part = true →
      d1.mustWait c lanes true (atomSem w) (atomScope w) = false →
      (∀ x ∈ linesOf n ts, (d1.core c.coreKey).readOn x.1 = false ∧ (d1.core c.coreKey).outOn x.1 (fun _ => true) = false) →
      Gives s (cmd g w) (went ((linesOf n ts).foldl (fun (e : Dev) x =>
        let mine := ts.filter (fun t => t.2.line == some x.1)
        (e.setCore c.coreKey ((e.core c.coreKey).l1Drop x.1.host x.1.n)).sendAccess c
          (if w.uf then lanes else mine.foldl (fun (m : Lanes) t => m ||| laneBit t.1) 0) x.1 .atomic (atomSem w) (atomScope w)
          (if atomNoret w then none else some (w.uf, w.d.toNat, n / 4))
          (.atm x.1 op (atomType w) (atomStream w) (atomNoret w) (mine.map (fun t => atomOperand c op w t.1 (t.2.pa % 128))))) d1)
        c (lineSlots w.uf (linesOf n ts)) pc)))
  ∧ (
  ∀ (old b c : Nat),
    atomApply .add 0 old b c = (old + b) % 2 ^ 32 ∧ atomApply .add 2 old b c = (old + b) % 2 ^ 64
    ∧ atomApply .exch 0 old b c = b % 2 ^ 32
    ∧ (old % 2 ^ 32 = c % 2 ^ 32 → atomApply .cas 0 old b c = b % 2 ^ 32)
    ∧ (old % 2 ^ 32 ≠ c % 2 ^ 32 → atomApply .cas 0 old b c = old % 2 ^ 32)
    ∧ (old < 2 ^ 32 → b < 2 ^ 32 → atomApply .min 0 old b c = min old b ∧ atomApply .max 0 old b c = max old b
        ∧ atomApply .and 0 old b c = old &&& b ∧ atomApply .or 0 old b c = old ||| b ∧ atomApply .xor 0 old b c = old ^^^ b)
    ∧ (old < 2 ^ 32 → b < 2 ^ 32 → (signed 32 b < signed 32 old → atomApply .min 1 old b c = b ∧ atomApply .max 1 old b c = old)
        ∧ (signed 32 old < signed 32 b → atomApply .min 1 old b c = old ∧ atomApply .max 1 old b c = b)))
  ∧ (
  ∀ (line off : Nat) (x y : AtomLane), x.off = off → y.off = off → off + 4 ≤ 128 →
    let old := bytesAt line off 4
    let r := atomLanes .add 0 [x, y] line
    r.2 = [(x.lane, BitVec.ofNat 64 old), (y.lane, BitVec.ofNat 64 ((old + x.b.toNat) % 2 ^ 32))]
    ∧ bytesAt r.1 off 4 = (old + x.b.toNat + y.b.toNat) % 2 ^ 32)

/-- RED.ADD, RED.MIN, RED.MAX and RCLOSE send one REDC to each distinct line addressed (09 R286); a bad descriptor raises an
address-kind fault before any contribution leaves the core (R287). -/
def Obligations.ReductionsComplete : Prop :=
  (∀ (s : State) (g : GroupRef) (c : Ctx) (w : FmtA) (cmd : GroupRef → FmtA → Instr) (op : RedOp), CanIssue s g c →
    (cmd, op) ∈ [((.redAdd : GroupRef → FmtA → Instr), RedOp.add), (.redMin, .min), (.redMax, .max)] →
    let t := w.mod.toNat
    let n := redRegs t
    Legal s c (aUses c.grp.nv w { a := .reg 2, b := .reg n, c := .upair, modOk := decide (t < 6), uni := true }) →
    let ls := (c.takers w.guard w.uf).map (fun l => (l, srcA c.grp w l 2))
    let lanes := c.accessLanes w.guard w.uf
    let desc := fun (d : Dev) => d.descr c.part c.run.fn (redClass op t) (c.grp.readU w.c.toNat).toNat (c.grp.readU (w.c.toNat + 1)).toNat
    ls ≠ [] →
    (∀ d1 x d2 ts, desc s.dev = .ok d1 x → d1.places c.part c.run.fn true false (4 * n) ls = .ok d2 ts → d2.partRuns c.part = true →
      d2.mustWait c lanes true 0 0 = false → (∀ y ∈ linesOf (4 * n) ts, (d2.core c.coreKey).writeBlocked y.1 = false) →
      Gives s (cmd g w) (went (d2.sendReds c lanes (linesOf (4 * n) ts) (fun l => .redc l x
        ((ts.filter (fun y => y.2.line == some l)).map (fun y => (y.2.pa % 128 / (4 * n), redValue t (srcB c.grp w y.1 n)))) false))
        c (lineSlots w.uf (linesOf (4 * n) ts)) (c.path.pc + 8)))
    ∧ (2 ^ 33 ≤ (c.grp.readU (w.c.toNat + 1)).toNat → Gives s (cmd g w) (s.dev.jobFault c.part causeAddress c.die)))
  ∧ (∀ (s : State) (g : GroupRef) (c : Ctx) (w : FmtA) (d1 : Dev) (ts : List (Nat × Xl)), CanIssue s g c →
    Legal s c (aUses c.grp.nv w { a := .reg 2, modOk := w.mod == 0, uni := true }) →
    s.dev.places c.part c.run.fn true false 1 ((c.takers w.guard w.uf).map (fun l => (l, srcA c.grp w l 2))) = .ok d1 ts →
    d1.partRuns c.part = true → d1.mustWait c (c.accessLanes w.guard w.uf) true 0 0 = false →
    (∀ y ∈ linesOf 1 ts, (d1.core c.coreKey).writeBlocked y.1 = false) →
    Gives s (.rclose g w) (went (d1.sendReds c (c.accessLanes w.guard w.uf) (linesOf 1 ts)
      (fun l => .redc l { cls := .addF, count := 0, fenceEn := false, fence := 0 } [] true)) c 1 (c.path.pc + 8)))

/-- BCOPY.G2L and BCOPY.L2G start a copy that names its places and its counter, BCOPY_COMPLETE performs it: when every byte
is written the counter rises by 1 (04 R155). -/
def Obligations.BulkCopies : Prop :=
  (∀ (s : State) (g : GroupRef) (c : Ctx) (w : FmtA) (toLocal : Bool) (lane : Nat) (x y : LocPlace) (d1 : Dev) (ts : List (Nat × Xl)),
    CanIssue s g c → Legal s c (aUses c.grp.nv w (bcopySpec w)) → c.takers w.guard true = [lane] →
    let cmd : Instr := if toLocal then .bcopyG2l g w else .bcopyL2g g w
    let ctr := (c.grp.readU w.d.toNat).toNat % 2 ^ 32
    let loc := (c.grp.readU w.a.toNat).toNat % 2 ^ 32
    let va := srcB c.grp w lane 2
    let len := (c.grp.readU w.c.toNat).toNat
    len % 16 = 0 → 16 ≤ len → len ≤ 65536 → loc % 16 = 0 → va % 16 = 0 → ctr % 8 = 0 →
    s.dev.localPlace c loc len = some x → s.dev.localPlace c ctr 8 = some y →
    s.dev.places c.part c.run.fn (!toLocal) false 1 ((pagePieces 18 va len).map (fun x => (0, x.1))) = .ok d1 ts → d1.partRuns c.part = true →
    d1.mustWait c c.path.mask (!toLocal) 0 0 = false → d1.localPending c.key = false →
    let k := d1.core c.coreKey
    let copy : BulkCopy :=
      { id := d1.nextId, gkey := c.key, origin := c.key, part := c.part, acct := c.run.acct, block := x.ck * 32 + x.slot, loc := x.off
        toLocal := toLocal, cblock := y.ck * 32 + y.slot, counter := y.off
        segs := (ts.zip (pagePieces 18 va len)).map (fun z => ((match z.1.2 with | .host _ => true | _ => false), z.1.2.pa, z.2.2))
        q := c.grp.q, i := c.grp.i }
    Gives s cmd (went (({ d1 with nextId := d1.nextId + 1 } : Dev).setCore c.coreKey { k with copies := k.copies ++ [copy] }) c 1 (c.path.pc + 8)))
  ∧ (∀ (s : State) (g : GroupRef) (c : Ctx) (w : FmtA) (toLocal : Bool) (lane : Nat), CanIssue s g c → Legal s c (aUses c.grp.nv w (bcopySpec w)) →
    c.takers w.guard true = [lane] → ((c.grp.readU w.c.toNat).toNat % 16 ≠ 0 ∨ (c.grp.readU w.c.toNat).toNat < 16 ∨ 65536 < (c.grp.readU w.c.toNat).toNat) →
    Gives s (if toLocal then .bcopyG2l g w else .bcopyL2g g w) (s.dev.jobFault c.part causeAddress c.die))
  ∧ (∀ (s : State) (die core sub slot : Nat) (b : BulkCopy), (s.dev.core (coreKey die core)).copies = [b] → b.origin = groupKey die core sub slot →
    s.dev.partRuns b.part = true → s.dev.coresIssue = true → b.segs = [] →
    (∀ bl, ((s.dev.core (b.block / 32)).block (b.block % 32) = some bl ∨ (s.dev.core (b.cblock / 32)).block (b.cblock % 32) = some bl) → bl.ended = false) →
    ∃ t, Next s (.bcopyComplete die core sub slot) t ∧ t.dev.mem = s.dev.mem
      ∧ (∀ blk, (s.dev.core (b.cblock / 32)).block (b.cblock % 32) = some blk →
          t.dev.readLoc (blockPlace b.cblock b.counter) 8 = (s.dev.readLoc (blockPlace b.cblock b.counter) 8 + 1) % 2 ^ 64))

/-! ### The matrix class -/

/-- The register-form multiplies, MMS, ACC.LD, ACC.ST, ACC.ZERO, SMX.MAX and SMX.SUM (06 R199, R203, R210-R213, R218, R219):
a legal word whose descriptors lie in their ranges enters the unit with its sources; a descriptor out of range raises an
address-kind fault. -/
def Obligations.MatrixInstructionsIssue : Prop :=
  ∀ (s : State) (g : GroupRef) (c : Ctx) (w : FmtA), CanIssue s g c → MatrixReady s c → w.ib = false → w.uf = false → w.lf = false → w.guard = 0 →
    let x := c.grp
    let u := fun (r : BitVec 8) => x.readU r.toNat
    let uni := fun (r : BitVec 8) => r.toNat < 64
    let cmds : List (Nat × (GroupRef → FmtA → Instr)) :=
      [(0, .mmaF8F32), (1, .mmaI8S32), (2, .mmaBf16F32), (3, .mmaF16F32), (4, .mmaMxF32), (5, .mmaIx4F32), (6, .mmaI4S32)]
    (w.ka = false → w.kb = false → w.kc = false → Octet c w.d 8 → w.mod.toNat < 512 →
      ∀ cmd ∈ cmds, matModOk cmd.1 w.mod = true →
        let quad := if cmd.1 = 4 ∨ cmd.1 = 5 then 5 else 4
        Octet c w.a quad → Octet c w.b quad →
        let scale := fun (r : BitVec 8) => if cmd.1 = 4 ∨ cmd.1 = 5 then x.words (r.toNat + 4) 1 else []
        let ut := if cmd.1 = 5 then x.readU (matUt w.mod) else 0
        (w.mod.getLsbD 8 = false → Octet c w.c 8 → Queued s c (cmd.2 g w) 8
          (.mma cmd.1 w.mod (x.words w.a.toNat 4) (x.words w.b.toNat 4) (scale w.a) (scale w.b) (some (x.words w.c.toNat 8)) w.c.toNat ut w.d.toNat))
        ∧ (w.mod.getLsbD 8 = true → w.c = 0 → Queued s c (cmd.2 g w) 8
          (.mma cmd.1 w.mod (x.words w.a.toNat 4) (x.words w.b.toNat 4) (scale w.a) (scale w.b) (some []) 0 ut w.d.toNat)))
    ∧ (w.ka = true → w.kb = true → uni w.d → uni w.a → uni w.b →
        let cls := mmsCls w.mod
        let dc := if matBlock cls != 0 then u w.c else 0
        (matModOk cls w.mod = true → w.kc = (matBlock cls != 0) → (if w.kc then uni w.c else w.c = 0) →
          (mmsOk x (s.dev.lmemOf c) w.mod (u w.d) (u w.a) (u w.b) dc = true → Queued s c (.mms g w) 1
            (.mms w.mod (u w.d) (u w.a) (u w.b) dc (if cls = 5 then x.readU (matUt w.mod) else 0)))
          ∧ (mmsOk x (s.dev.lmemOf c) w.mod (u w.d) (u w.a) (u w.b) dc = false → Gives s (.mms g w) (s.dev.jobFault c.part causeAddress c.die)))
        ∧ (w.kc = false → w.c = 0 → w.mod.toNat < 2 →
          (smxMaxOk x w.mod (u w.d) (u w.a) (u w.b) = true → Queued s c (.smxMax g w) 1 (.smxMax w.mod (u w.d) (u w.a) (u w.b)))
          ∧ (smxMaxOk x w.mod (u w.d) (u w.a) (u w.b) = false → Gives s (.smxMax g w) (s.dev.jobFault c.part causeAddress c.die)))
        ∧ (w.kc = false → w.c = 0 → w.mod.toNat < 4 → smxSumOk x (s.dev.lmemOf c) w.mod (u w.d) (u w.a) (u w.b) = true →
          Queued s c (.smxSum g w) 1 (.smxSum w.mod (u w.d) (u w.a) (u w.b) (BitVec.ofNat 32 fpOne)))
        ∧ (w.kc = true → uni w.c → 8 ≤ w.mod.toNat → w.mod.toNat < 12 → smxSumOk x (s.dev.lmemOf c) w.mod (u w.d) (u w.a) (u w.b) = true →
          Queued s c (.smxSum g w) 1 (.smxSum w.mod (u w.d) (u w.a) (u w.b) ((u w.c).setWidth 32))))
    ∧ (w.ka = true → w.kb = false → w.kc = false → w.mod = 0 → w.c = 0 → uni w.a →
        (w.b = 0 → Octet c w.d 8 →
          ((subTile x (u w.a)).isSome → Queued s c (.accLd g w) 2 (.accLd (u w.a) w.d.toNat))
          ∧ (subTile x (u w.a) = none → Gives s (.accLd g w) (s.dev.jobFault c.part causeAddress c.die)))
        ∧ (w.d = 0 → Octet c w.b 8 → (subTile x (u w.a)).isSome → Queued s c (.accSt g w) 2 (.accSt (u w.a) (x.words w.b.toNat 8)))
        ∧ (w.d = 0 → w.b = 0 → (zeroRange x (u w.a)).isSome → Queued s c (.accZero g w) 1 (.accZero (u w.a))))

/-- MATRIX_UNIT_WORK_COMPLETE (06 R199, R200, R223): the oldest work of the unit is performed with the sources it was issued
with and leaves the unit; its flags are raised but for those cleared since (04 R132); no other group changes.
What matrix work computes: MMA.I8.S32 on signed elements gives at (r, n) the accumulator element plus the 32 products,
modulo 2^32, in its place of R205 (06 R205-R208); ACC.ST then ACC.LD bring an octet back; ACC.ZERO leaves zeros (R211). -/
def Obligations.MatrixWork : Prop :=
  (
  ∀ (s : State) (die core sub p : Nat) (m : MatEntry) (rest : List MatEntry) (k : Group) (b : Block), sub < 4 →
    s.dev.munit (subKey die core sub) = m :: rest → m.gkey / 16 = subKey die core sub → s.dev.group m.gkey = some k →
    s.dev.partOfStack die = some p → s.dev.partRuns p = true → s.dev.coresIssue = true → s.dev.blockOf m.gkey k = some b →
    k.ended = false → k.stepping = none → (∃ q ∈ k.paths, q.status = .running) → (∀ x ∈ rest, x.gkey ≠ m.gkey) →
    let r := m.work.perform { grp := k, blk := b }
    ∃ t, Next s (.matrixUnitWorkComplete die core sub) t ∧ t.dev.munit (subKey die core sub) = rest
      ∧ t.dev.group m.gkey = some (r.grp.raise (r.flags &&& ~~~m.noRaise)) ∧ (t.dev.core (coreKey die core)).block k.block = some r.blk
      ∧ (∀ n, n ≠ m.gkey → t.dev.group n = s.dev.group n) ∧ t.dev.mem = s.dev.mem ∧ t.dev.net = s.dev.net)
  ∧ (
  (∀ (x : MatSt) (a b o : List Word) (cr d r n : Nat), r < 16 → n < 16 →
    ((MatWork.mma 1 0 a b [] [] (some o) cr 0 d).perform x).grp.readV (d + n % 8) (16 * (n / 8) + r) =
      BitVec.ofInt 32 (((octetGet o r n).toNat : Int) + ((List.range 32).map (fun k => matByte a r k * matByte b n k)).foldl (fun s v => s + v) 0))
  ∧ (∀ (x : MatSt) (desc : DWord) (o : List Word) (d r n : Nat), (subTile x.grp desc).isSome → r < 16 → n < 16 →
    ((MatWork.accLd desc d).perform ((MatWork.accSt desc o).perform x)).grp.readV (d + n % 8) (16 * (n / 8) + r) = octetGet o r n)
  ∧ (∀ (x : MatSt) (desc : DWord) (off : Nat), (zeroRange x.grp desc).isSome → off % 4 = 0 →
    ((MatWork.accZero desc).perform x).grp.readAcc off =
      if desc.toNat % 65536 ≤ off ∧ off < desc.toNat % 65536 + desc.toNat / 65536 % 2 ^ 17 then 0 else x.grp.readAcc off))

/-! ### Debugging -/

/-- BKPT (03 R115, R116): without the task's debug flag, a ring or a lane it does nothing; else the whole group halts past
it and a record goes to the ring. PENDING_RECORD_WRITE writes a record that waited for space (R123).
The debug tasks (03 R117-R121): attaching, reading and writing the state of a halted group, one step of it, letting it
run on, killing its block, detaching. -/
def Obligations.Debugging : Prop :=
  (
  (∀ (s : State) (g : GroupRef) (c : Ctx) (w : FmtI), CanIssue s g c → w.uf = false → Legal s c (iUses c.grp.nv w none none) →
    (c.lanes w.guard = 0 ∨ c.run.debug = false ∨ s.dev.ringOf c.run.fn = none → Gives s (.bkpt g w) (went s.dev c 1 (c.path.pc + 8)))
    ∧ (∀ r, Alone c → c.lanes w.guard ≠ 0 → c.run.debug = true → c.run.fn = s.dev.fnOfQueue c.grp.q → s.dev.ringOf c.run.fn = some r →
      ∃ t r', Next s (.bkpt g w) t ∧ t.dev.group c.key = some { c.grp with
          paths := [{ c.path with pc := c.path.pc + 8 }]
          halted := some { active := c.path.mask } }
        ∧ t.dev.ringOf c.run.fn = some r' ∧ ringTaken r' = ringTaken r + 1 ∧ r'.base = r.base ∧ r'.k = r.k))
  ∧ (∀ (s : State) (fn p x v a b : Nat) (r : DebugRing) (d1 d2 d3 : Dev), s.dev.partOfFn fn = some p → s.dev.partRuns p = true →
    s.dev.ringOf fn = some r → r.pending = [x] → s.dev.cpRead p fn (r.base + 8) 8 = (d1, .ok v) → r.producer < v + 2 ^ r.k →
    d1.cpWrite p fn (r.base + 64 + 64 * (r.producer % 2 ^ r.k)) 64 (putBytes x 2 2 r.producer) = (d2, .ok a) →
    d2.cpWrite p fn r.base 8 (r.producer + 1) = (d3, .ok b) →
    ∃ t, Next s (.pendingRecordWrite fn) t ∧ t.dev.ringOf fn = some { r with producer := r.producer + 1, pending := [] }
      ∧ t.dev.groups = s.dev.groups))
  ∧ (
  ∀ (s : State) (q i p : Nat) (t : Task), s.dev.partRuns p = true →
    let fn := s.dev.fnOfQueue q
    (∀ d1 v ps, Works s q i 0x48 p t → 6 ≤ t.aux16 → t.aux16 ≤ 16 → t.aux32 = 0 → t.body 0 % 64 = 0 → t.bodyZero [1, 2, 3] = true →
      s.dev.range p fn true (t.body 0) (64 + 64 * 2 ^ t.aux16) = (d1, .ok v, ps) →
      (d1.ringOf fn = none → Gives s (.debugAttach q i) ((d1.setRing fn { base := t.body 0, k := t.aux16 }).workDone t 0 0))
      ∧ ((d1.ringOf fn).isSome → Gives s (.debugAttach q i) (d1.workDone t stDebugBusy 0)))
    ∧ (∀ v d1 x, Works s q i 0x49 p t → s.dev.debugView p t = some (.inr v) →
      s.dev.cpWriteFor p fn t.acct (t.body 1 / 2 ^ 32 / 128 + 2) (t.body 0) (t.body 1 / 2 ^ 32)
        (s.dev.regionRead v t.aux16 (t.body 1 % 2 ^ 32) (t.body 1 / 2 ^ 32)) = (d1, .ok x) →
      Gives s (.debugRead q i) (({ d1 with fresh := d1.fresh + 1 } : Dev).workDone t 0 0))
    ∧ (∀ v d1 x, Works s q i 0x4A p t → s.dev.debugView p t = some (.inr v) → t.aux16 = 0 → t.body 1 = 4 * 2 ^ 32 →
      s.dev.cpRead p fn (t.body 0) 4 t.acct = (d1, .ok x) →
      ∃ u, Next s (.debugWrite q i) u ∧ Done t q i 0 0 u ∧ u.dev.mem = d1.mem
        ∧ u.dev.group v.key = some (v.grp.writeV 0 0 (BitVec.ofNat 32 x)))
    ∧ (∀ key k (a : Path) (gr : GroupRef) (c : Ctx) (e : Dev) (w imm : DWord) (f : FmtA),
      Works s q i 0x4B p t → s.dev.debugGroup p t = .inr (key, k) → k.paths = [a] → a.status = .running → a.points = [] → k.points = [] →
      k.stepping = none → k.ended = false → gkeyOf gr = key → s.dev.matrixBusy key = false →
      let d0 := (s.dev.setGroup key { k with halted := none }).bumpGen key
      d0.ctx gr = some c → c.path.pc % 8 = 0 → c.path.pc < 2 ^ 56 → d0.fetch c = .ok e w imm → decodeIns gr w imm = some (.nop gr f) →
      aUses k.nv f { modOk := f.mod == 0 } = some [] → e.interlocked c [] = false →
      ∃ u, Next s (.debugStep q i) u ∧ Done t q i 0 0 u ∧ u.dev.group key = some { k with
        paths := [{ a with pc := a.pc + 8 }]
        halted := some { active := a.mask } })
    ∧ (∀ key k, Works s q i 0x4C p t → s.dev.debugGroup p t = .inr (key, k) →
      ∃ u, Next s (.debugResume q i) u ∧ Done t q i 0 0 u ∧ u.dev.group key = some { k with halted := none } ∧ u.dev.handle key ≠ s.dev.handle key)
    ∧ (∀ key k b, Works s q i 0x4D p t → s.dev.debugGroup p t = .inr (key, k) → s.dev.blockOf key k = some b →
      (∀ m ∈ s.dev.munit (key / 16), m.gkey ≠ key) →
      ∃ u, Next s (.debugKill q i) u ∧ Done t q i 0 0 u ∧ u.dev.group key = none)
    ∧ (Works s q i 0x4E p t → t.aux16 = 0 → t.aux32 = 0 → t.bodyZero [0, 1, 2, 3] = true →
      ((s.dev.ringOf fn).isSome → ∃ u, Next s (.debugDetach q i) u ∧ Done t q i 0 0 u ∧ u.dev.ringOf fn = none)
      ∧ (s.dev.ringOf fn = none → Gives s (.debugDetach q i) (s.dev.workDone t stDebugNoRing 0))))

/-! ### Kernels, blocks and the end of tasks -/

/-- KERNEL and BLOCK_PLACE (03 R102, R103, 11 R347-R349): a task that passes the checks is offered for placement with the
next release number; a grid with a count of 0 is done at once; a block of one group goes to the first core with room, in
the lowest free block slot, its one group starting at the entry with the lanes whose threads exist. -/
def Obligations.KernelsPlaceBlocks : Prop :=
  (∀ (s : State) (q i p k : Nat) (t : Task) (d1 d2 : Dev) (l : Launch) (x : Cp), Works s q i clsKernel p t → s.dev.run q i = none →
    (t.indirect = true → ∃ pc, s.dev.pconf p = some pc ∧ pc.indirect = true) →
    s.dev.cpRead p (s.dev.fnOfQueue q) (t.body 0) 64 t.acct = (d1, .ok k) → d1.readLaunch p t = (d2, some l, x) →
    let r := d2.mkRun p t k l
    kernelStatus t k l r = 0 →
    (l.gx * l.gy * l.gz = 0 → Gives s (.kernel q i) (d2.workDone t 0 0))
    ∧ (l.gx * l.gy * l.gz ≠ 0 → Gives s (.kernel q i)
        ({ d2.setPart p { d2.part p with release := (d2.part p).release + 1 } with runs := d2.runs ++ [r] })))
  ∧ (∀ (s : State) (q i ck : Nat) (r : Run) (rest : List (List Nat)), s.dev.run q i = some r → s.dev.partRuns r.part = true → s.dev.stage < 3 →
    s.dev.faults.stopped = false → r.offers = true → s.dev.heldBack s.fuses r = false → r.csize = 1 → r.threads ≤ 32 → 0 < r.threads →
    s.dev.candidates s.fuses r = [ck] :: rest → s.dev.coreFits r ck = true →
    let bs := (s.dev.core ck).blocks
    ∃ t key, Next s (.blockPlace q i) t ∧ t.dev.run q i = some { r with next := r.next + 1, live := r.live + 1 }
      ∧ (t.dev.core ck).blocks = bs ++ [{ slot := lowestFree (bs.map (fun b => b.slot)), q := r.q, i := r.i, index := (r.unitBlocks r.next).headD 0
                                          cluster := (r.unitBlocks r.next).headD 0, rank := 0, lmem := r.lmem, groups := 1 }]
      ∧ (t.dev.core ck).split = splitKib r.split ∧ key / 16 = 4 * ck
      ∧ t.dev.group key = some { q := r.q, i := r.i, block := lowestFree (bs.map (fun b => b.slot)), num := 0, nv := r.nv, acc := r.acc, seed := r.seed
                                 exited := ~~~presentLanes r.threads 0
                                 paths := [{ mask := presentLanes r.threads 0, pc := r.entry, status := .running }] }
      ∧ t.dev.mem = s.dev.mem)

/-- TASK_DONE (11 R358, R360, R362): a task without fence signals whose work is over writes its record where it asks for
one, leaves, and the retired index rises past it; a failing status puts its queue in ERROR and keeps the status and index. A NOP is done at
once (R346). -/
def Obligations.TasksEnd : Prop :=
  (∀ (s : State) (q i p st info v : Nat) (t : Task) (d2 : Dev), s.dev.tasks = [t] → t.q = q → t.i = i → s.dev.partOfQueue q = some p →
    s.dev.partRuns p = true → s.dev.coresIssue = true → s.dev.ending t = some (st, info) → t.stage = 0 → t.fop < 4 →
    let x := s.dev.queue q
    let t1 : Task := { t with state := .done st info }
    x.state = .active → x.retired = i → x.ended = [] →
    (completes st t.cls false = true →
      (s.dev.setTask t1).cplRecord p { t1 with stage := 2 } st info = (d2, .ok v) →
      ∃ u, Next s (.taskDone q i) u ∧ u.dev.tasks = [] ∧ u.dev.queue q = { x with retired := i + 1 } ∧ u.dev.mem = d2.mem)
    ∧ (completes st t.cls false = false → st ≠ stSquashed → t.cpl = false →
      ∃ u, Next s (.taskDone q i) u ∧ u.dev.tasks = [] ∧ (u.dev.queue q).state = .error ∧ (u.dev.queue q).errStatus = st
        ∧ (u.dev.queue q).errIndex = i ∧ u.dev.mem = s.dev.mem))
  ∧ (∀ (s : State) (q i p : Nat) (t : Task), Works s q i 0x02 p t → t.bodyZero [0, 1, 2, 3] = true →
    Gives s (.taskNop q i) (s.dev.workDone t 0 0))
  ∧ (∀ (s : State) (q i p : Nat) (t : Task), s.dev.tasks = [t] → t.q = q → t.i = i → s.dev.expired q i = some (p, t) → t.cpl = false →
    s.dev.blocksOfTask q i = [] → s.dev.seif.colls = [] → (s.dev.queue q).state = .active →
    ∃ u, Next s (.taskTimeout q i) u ∧ u.dev.tasks = [] ∧ (u.dev.queue q).state = .error ∧ (u.dev.queue q).errStatus = stTimeout
      ∧ (u.dev.queue q).errIndex = i ∧ u.dev.mem = s.dev.mem)

/-! ### Queues and doorbells -/

/-- Doorbells (11 R337, R340, R342, R355): a producer write within the ring is taken, one that overruns it puts the queue in
ERROR, one that does not raise it is ignored; a bootstrap write creates the queue; the next descriptor is read and becomes a
task, and a head whose conditions are met is released; a fence poll releases a head whose words have been reached. -/
def Obligations.Doorbells : Prop :=
  (∀ (s : State) (src : DblSource) (page slot q p : Nat) (v : DWord), s.dev.bellTarget src page slot = some q → s.dev.bellTaken q = true →
    s.dev.partOfQueue q = some p →
    let x := s.dev.queue q
    (x.state = .active → x.producer < v.toNat → v.toNat ≤ x.retired + 2 ^ x.log2 →
      Gives s (.dblProducer src page slot v) (s.dev.setQueue q { x with producer := v.toNat }))
    ∧ (x.state ≠ .active ∨ v.toNat ≤ x.producer → Gives s (.dblProducer src page slot v) s.dev)
    ∧ (x.state = .active → x.producer < v.toNat → x.retired + 2 ^ x.log2 < v.toNat →
      ∃ t, Next s (.dblProducer src page slot v) t ∧ (t.dev.queue q).state = .error ∧ (t.dev.queue q).errStatus = stDoorbellOverrun
        ∧ (t.dev.queue q).errIndex = x.producer ∧ (t.dev.queue q).producer = x.producer)
    ∧ (x.state = .free → s.dev.isBootQueue q = true → v.toNat / 2 ^ 63 = 1 →
      let ringVa := x.bootRing.toNat % 2 ^ 56
      let log2 := x.bootRing.toNat / 2 ^ 56
      let timeout := v.toNat / 2 ^ 32 % 2 ^ 26
      let st := s.dev.createStatus p (v.toNat / 2 ^ 60 % 8 == 0) (BitVec.ofNat 32 v.toNat) timeout ringVa log2
      (st = 0 → ∃ t, Next s (.bootstrapCreate src page slot v) t ∧ (∀ k, k ≠ q → t.dev.queue k = s.dev.queue k)
        ∧ t.dev.queue q = { ringVa := ringVa, log2 := log2, state := .active, fn := s.dev.fnOfQueue q, kernel := true, prio := v.toNat / 2 ^ 58 % 4
                            timeout := timeout, binding := BitVec.ofNat 32 v.toNat, bootRing := x.bootRing, bootCfg := BitVec.ofNat 64 (v.toNat % 2 ^ 63) })
      ∧ (st ≠ 0 → ∃ t, Next s (.bootstrapCreate src page slot v) t ∧ (t.dev.queue q).state = .free ∧ (t.dev.queue q).errStatus = st)))
  ∧ (∀ (s : State) (q p : Nat) (d1 : Dev), s.dev.tasks = [] → s.dev.partOfQueue q = some p → s.dev.fetches q = true → s.dev.stage < 3 →
    let x := s.dev.queue q
    x.fetched < x.producer → x.fetched < x.retired + 256 → x.ended = [] → bindByte x.binding 0 / 128 % 2 = 1 → 0 < s.dev.timerRemainder p →
    s.dev.ledger.page.tickets.length < 65536 →
    s.dev.cpRead p (s.dev.fnOfQueue q) (x.ringVa + 128 * (x.fetched % 2 ^ x.log2)) 128 = (d1, .ok 0x02) →
    ∃ t y, Next s (.descriptorRead q) t ∧ (t.dev.queue q).fetched = x.fetched + 1 ∧ t.dev.tasks = [y] ∧ y.q = q ∧ y.i = x.fetched ∧ y.desc = 0x02
      ∧ y.state = .released ∧ y.head = true ∧ t.dev.mem = d1.mem)
  ∧ (∀ (s : State) (q cursor p : Nat) (x : Task), s.dev.tasks = [x] → x.q = q → x.slot = cursor → s.dev.partOfQueue q = some p → s.dev.fetches q = true →
    s.dev.stage < 3 → x.state = .fetched → x.head = true → x.timer = none →
    ((s.dev.fences p x).2 = .met → s.dev.headWait p x = 0 → ∃ t y, Next s (.fencePoll q cursor) t ∧ t.dev.tasks = [y] ∧ y.desc = x.desc ∧ y.state = .released)
    ∧ (s.dev.depsMet x = true → (s.dev.fences p x).2 = .unmet → ∃ t, Next s (.fencePoll q cursor) t ∧ t.dev.tasks = [x]))

/-- QUEUE_CREATE, QUEUE_DESTROY and DESTROY_DRAIN_COMPLETE (11 R352, 12 R377, R378). -/
def Obligations.QueueTasks : Prop :=
  (∀ (s : State) (q i p : Nat) (t : Task), Works s q i clsQueueCreate p t → t.body 3 = 0 →
    let x := s.dev.queue t.aux16
    let w := t.body 2
    let st := s.dev.createStatus p (w / 2 ^ 43 == 0) (BitVec.ofNat 32 w) t.aux32 (t.body 0) (w / 2 ^ 32 % 256)
    (s.dev.sameFn q t.aux16 = true → x.state = .free → st = 0 → ∃ u, Next s (.queueCreate q i) u ∧ Done t q i 0 0 u
      ∧ (∀ k, k ≠ t.aux16 → u.dev.queue k = s.dev.queue k)
      ∧ u.dev.queue t.aux16 = { ringVa := t.body 0, log2 := w / 2 ^ 32 % 256, state := .active, fn := s.dev.fnOfQueue q, kernel := (w / 2 ^ 42 % 2 == 1)
                                prio := w / 2 ^ 40 % 4, timeout := t.aux32, binding := BitVec.ofNat 32 w, producer := t.body 1, retired := t.body 1
                                fetched := t.body 1, bootRing := x.bootRing, bootCfg := x.bootCfg })
    ∧ (s.dev.sameFn q t.aux16 = true → x.state = .free → st ≠ 0 → Gives s (.queueCreate q i) (s.dev.workDone t st 0))
    ∧ (s.dev.sameFn q t.aux16 = false ∨ x.state ≠ .free → Gives s (.queueCreate q i) (s.dev.workDone t stQueueRange 0)))
  ∧ (∀ (s : State) (q i p : Nat) (t : Task), Works s q i clsQueueDestroy p t → t.work = .none → t.aux16 = 0 → t.bodyZero [0, 1, 2, 3] = true →
    let x := s.dev.queue t.aux32
    (s.dev.sameFn q t.aux32 = true → t.aux32 ≠ q → x.state = .active ∨ x.state = .error → s.dev.haltedBlocks t.aux32 = [] →
      (∀ y ∈ s.dev.tasks, y.q ≠ t.aux32) →
      ∃ u, Next s (.queueDestroy q i) u ∧ u.dev.task q i = some { t with work := .destroy t.aux32 (x.producer - x.fetched) 0 0 0 }
        ∧ u.dev.queue t.aux32 = { x with state := .destroying, squashed := (x.squashed + (x.producer - x.fetched)) % 2 ^ 32, fetched := x.producer })
    ∧ (t.aux32 = q ∨ x.state = .free ∨ x.state = .destroying → Gives s (.queueDestroy q i) (s.dev.workDone t stQueueRange 0)))
  ∧ (∀ (s : State) (target p : Nat), s.dev.partOfQueue target = some p → s.dev.partRuns p = true → (s.dev.queue target).state = .destroying →
    (∀ y ∈ s.dev.tasks, y.q ≠ target) →
    ∃ u, Next s (.destroyDrainComplete target) u
      ∧ u.dev.queue target = { bootRing := (s.dev.queue target).bootRing, bootCfg := (s.dev.queue target).bootCfg }
      ∧ (∀ (q i sq dr tmo killed : Nat) (t : Task), s.dev.task q i = some t → t.work = .destroy target sq dr tmo killed → u.dev.task q i = some { t with
          state := .done 0 (sq % 2 ^ 24 + dr % 2 ^ 9 * 2 ^ 24 + tmo % 2 ^ 9 * 2 ^ 33 + killed % 2 ^ 22 * 2 ^ 42)
          work := .none }))

/-- PIN, UNPIN and TAG_CLOSE (08 R276, R277, 19 R538): on one line, PIN pins a resident line within the quota and counts it,
UNPIN clears it; beyond the quota PIN pins nothing; TAG_CLOSE marks the account closing and waits for its final page. -/
def Obligations.PinsAndTags : Prop :=
  (∀ (s : State) (q i p v n set sl k : Nat) (t : Task) (d1 : Dev) (w : Way), (Works s q i 0x42 p t ∨ Works s q i 0x43 p t) →
    t.aux16 = 0 → t.aux32 = 0 → t.bodyZero [2, 3] = true → t.work = .none → s.dev.pinRange p t = (d1, .ok v, [n]) →
    d1.place p ⟨false, n⟩ = some (sl, set) → (d1.slice sl).findWay set (d1.homeWays p) ⟨false, n⟩ = some (k, w) →
    (t.cls = 0x42 → w.pinned = false → w.valid = 15 → d1.pinExceeds p [n] = false →
      Gives s (.pin q i) ((d1.setSlice sl ((d1.slice sl).setWay k { w with pinned := true })).workDone t 0 1))
    ∧ (t.cls = 0x42 → d1.pinExceeds p [n] = true → Gives s (.pin q i) (d1.workDone t pinQuotaStatus 0))
    ∧ (t.cls = 0x43 → w.pinned = true → Gives s (.unpin q i) ((d1.setSlice sl ((d1.slice sl).setWay k { w with pinned := false })).workDone t 0 1)))
  ∧ (∀ (s : State) (q i p : Nat) (t : Task), Works s q i clsTagClose p t → t.work = .none → t.bodyZero [0, 1, 2, 3] = true →
    (∀ a, s.dev.taggedAccount (s.dev.fnOfQueue q) t.tag = some a → a ∈ s.dev.ledger.page.tickets → ∃ u, Next s (.tagClose q i) u
      ∧ u.dev.task q i = some { t with work := .tagClose (acctKey a.fn a.num) }
      ∧ (u.dev.ledger.page.tickets.find? (fun x => x.is (acctKey a.fn a.num))).map (fun x => x.closing) = some true)
    ∧ (s.dev.taggedAccount (s.dev.fnOfQueue q) t.tag = none → Gives s (.tagClose q i) (s.dev.workDone t 0 (2 ^ 64 - 1))))

/-- COPY, COPY_2D, FILL and COPY_REDUCE (11 R352), each on one piece within a line: the bytes stand at the destination, no
other line of device memory changes, and the task is done with the bytes moved, or the one contribution made. -/
def Obligations.CopyTasks : Prop :=
  (∀ (s : State) (q i p a b n v : Nat) (t : Task) (cmd : Instr), t.aux16 = 0 → t.work = .none →
    let va := t.body 0
    let vb := t.body 1
    let fn := s.dev.fnOfQueue q
    (cmd = .copy q i ∧ Works s q i 0x10 p t ∧ t.aux32 = 0 ∧ t.body 2 = n ∧ t.body 3 = 0
      ∨ cmd = .copy2d q i ∧ Works s q i 0x11 p t ∧ t.aux32 = n ∧ t.body 3 = 1 ∧ n ≤ t.body 2 % 2 ^ 32 ∧ n ≤ t.body 2 / 2 ^ 32) →
    1 ≤ n → va % 128 + n ≤ 128 → vb % 128 + n ≤ 128 → a % 128 = va % 128 → b % 128 = vb % 128 → (va + n ≤ vb ∨ vb + n ≤ va) → (a + n ≤ b ∨ b + n ≤ a) →
    s.dev.translate p fn va false = (s.dev, .dev a) → s.dev.translate p fn vb true = (s.dev, .dev b) →
    s.dev.peek p ⟨false, a / 128⟩ (a % 128) n = some v → s.dev.canWrite p ⟨false, b / 128⟩ = true →
    ∃ u, Next s cmd u ∧ u.dev.task q i = some { t with work := .moved n n, state := .done 0 n }
      ∧ u.dev.peek p ⟨false, b / 128⟩ (b % 128) n = some v ∧ (∀ l, l ≠ (⟨false, b / 128⟩ : Line) → u.dev.peekLine p l = s.dev.peekLine p l))
  ∧ (∀ (s : State) (q i p b : Nat) (t : Task), Works s q i 0x12 p t → t.aux16 = 0 → t.aux32 = 0 → t.work = .none → t.body 1 = 8 → t.body 3 = 0 →
    t.body 0 % 8 = 0 → b % 128 = t.body 0 % 128 → s.dev.translate p (s.dev.fnOfQueue q) (t.body 0) true = (s.dev, .dev b) →
    s.dev.canWrite p ⟨false, b / 128⟩ = true →
    ∃ u, Next s (.taskFill q i) u ∧ u.dev.task q i = some { t with work := .moved 8 8, state := .done 0 8 }
      ∧ u.dev.peek p ⟨false, b / 128⟩ (b % 128) 8 = some (t.body 2))
  ∧ (∀ (s : State) (q i p b n v h : Nat) (t : Task) (d2 : Dev) (cls : RedClass) (desc : RedDesc) (x : Nat) (ps qs : List (Nat × Xl × Nat)),
    Works s q i 0x13 p t → t.work = .none →
    let ty := t.aux16 / 2 ^ 8 % 8
    let w := redSrcWidth ty
    let e := cls.width
    let fn := s.dev.fnOfQueue q
    RedClass.ofCode (t.aux16 % 256) = some cls → t.aux16 / 2 ^ 11 = 0 → redTypeOk cls ty = true → t.body 2 = w * n → 1 ≤ n → t.body 0 % w = 0 →
    t.body 1 % e = 0 → t.body 3 % 8 = 0 → (t.body 1 + n * e ≤ t.body 0 ∨ t.body 0 + t.body 2 ≤ t.body 1) → t.body 1 % 128 + n * e ≤ 128 →
    s.dev.descr p fn cls (t.body 3) (t.aux32 + (if t.body 3 = 0 then 0 else 2 ^ 32)) = .ok s.dev desc →
    s.dev.range p fn false (t.body 0) (t.body 2) = (s.dev, .ok x, ps) → s.dev.range p fn true (t.body 1) (n * e) = (s.dev, .ok x, qs) →
    s.dev.translate p fn (t.body 1) true = (s.dev, .dev b) → s.dev.cpRead p fn (t.body 0) (w * n) t.acct = (d2, .ok v) → d2.net = s.dev.net →
    d2.homeSlice p ⟨false, b / 128⟩ = some h →
    ∃ u, Next s (.copyReduce q i) u ∧ u.dev.task q i = some { t with work := .moved n 1, state := .done 0 1 }
      ∧ u.dev.net = s.dev.net ++ [{ src := .copyEngine (bindNum (bindByte (s.dev.queue q).binding t.slot)), dst := .slice h, rid := d2.nextId, acct := t.acct
                                    body := .redc ⟨false, b / 128⟩ desc
                                      ((List.range n).map (fun j => (b % 128 / e + j, redValue ty (bytesAt v (w * j) w)))) false }])

/-! ### Requests at the home slice -/

/-- RD_S, RD_O, WR, ATM and REDC at a device line that stands at its home with the sectors they need (08 R265-R267, 09 R289,
R291): a read answers FILL, RD_S adding the reader's stack to the sharers; WR and ATM write the way and answer; a write
to a line with a sharer first sends it INV; a contribution enters an open line's shadow; RCLOSE closes it. -/
def Obligations.RequestsAtHome : Prop :=
  ∀ (s : State) (src : UnitId) (p n set k : Nat) (m : Msg) (rest : List Msg) (l : Line) (w : Way), l.host = false → s.dev.inLog l.addr = false →
    let ans := fun (b : MsgBody) => rest ++ [({ src := .slice n, dst := src, rid := m.rid, acct := m.acct, body := b } : Msg)]
    (AtRest s.dev p n set k l w →
      (∀ secs hint, Arrives s src 0 p n m rest → secs &&& ~~~w.valid = 0 → w.hostE = false →
        (m.body = .rdS l secs hint → ∃ t, Next s (.rdS src (.slice n)) t ∧ t.dev.mem = s.dev.mem ∧ t.dev.net = ans (.fill l w.valid w.data true)
          ∧ Holds t.dev p n set k l w.data w.valid w.dirty (w.sharers ||| (1#8 <<< stackOfUnit src)) w.hostS false)
        ∧ (m.body = .rdO l secs hint → ∃ t, Next s (.rdO src (.slice n)) t ∧ t.dev.mem = s.dev.mem ∧ t.dev.net = ans (.fill l w.valid w.data false)
          ∧ Holds t.dev p n set k l w.data w.valid w.dirty w.sharers w.hostS false))
      ∧ (∀ mask data hint, Arrives s src 2 p n m rest → m.body = .wr l mask data hint →
        (Alone1 w → sectorsOf mask &&& ~~~sectorsCovered mask &&& ~~~w.valid = 0 →
          ∃ t, Next s (.wr src (.slice n)) t ∧ t.dev.mem = s.dev.mem ∧ t.dev.net = ans (.ack l)
            ∧ Holds t.dev p n set k l (mergeLine mask w.data data) (w.valid ||| sectorsOf mask) (w.dirty ||| sectorsOf mask) 0 false false)
        ∧ (∀ x e, w.sharers = 1#8 <<< x → x < 8 → w.hostS = false → w.hostE = false → (s.dev.slice n).freeEntry = some e →
          ∃ t a, Next s (.wr src (.slice n)) t ∧ t.dev.mem = s.dev.mem
            ∧ t.dev.net = rest ++ [{ src := .slice n, dst := .slice (16 * x + n % 16), rid := 0, body := .inv l }]
            ∧ (t.dev.slice n).awaitOf l = some a ∧ a.inv = w.sharers ∧ (t.dev.slice n).waitq.length = 1
            ∧ (t.dev.slice n).findWay set (t.dev.homeWays p) l = some (k, w)))
      ∧ (∀ op ty stream noret ls, Arrives s src 0 p n m rest → m.body = .atm l op ty stream noret ls → Alone1 w →
        sectorsOf (atomMask ty ls) &&& ~~~w.valid = 0 →
        let r := atomLanes op ty ls w.data.toNat
        ∃ t, Next s (.atm src (.slice n)) t ∧ t.dev.mem = s.dev.mem ∧ t.dev.net = ans (.atmRsp l (if noret then [] else r.2))
          ∧ Holds t.dev p n set k l (mergeLine (atomMask ty ls) w.data (BitVec.ofNat 1024 r.1)) (w.valid ||| sectorsOf (atomMask ty ls))
              (w.dirty ||| sectorsOf (atomMask ty ls)) 0 false false))
    ∧ (∀ desc elems close y, Arrives s src 2 p n m rest → m.body = .redc l desc elems close → s.dev.place p l = some (n, set) →
        (s.dev.slice n).slotOf l = some y → (s.dev.slice n).waitq = [] → desc = y.desc →
        (close = false → (y.desc.count = 0 ∨ y.received + 1 ≠ y.desc.count) →
          ∃ t y', Next s (.redc src (.slice n)) t ∧ t.dev.mem = s.dev.mem ∧ t.dev.net = ans (.ack l) ∧ (t.dev.slice n).slotOf l = some y'
            ∧ y'.received = y.received + 1 ∧ y'.fields = addFields y.desc.cls y.fields elems ∧ y'.desc = y.desc ∧ (t.dev.slice n).waitq = [])
        ∧ (close = true → (s.dev.slice n).findWay set (s.dev.homeWays p) l = some (k, w) → (s.dev.slice n).spillOf l = none → y.desc.fenceEn = false →
          ∃ t w', Next s (.redc src (.slice n)) t ∧ t.dev.mem = s.dev.mem ∧ t.dev.net = ans (.ack l) ∧ (t.dev.slice n).isOpen l = false
            ∧ (t.dev.slice n).findWay set (t.dev.homeWays p) l = some (k, w') ∧ w'.data = BitVec.ofNat 1024 (closeFields y.desc.cls y.fields)
            ∧ w'.valid = 15 ∧ w'.dirty = 15 ∧ w'.redOpen = false))

/-- FILL, ACK, ATM_RSP, INV, INV_ACK, EVN and HELD at their receivers (08 R258, R264, R265, R267, R269, 09 R295). -/
def Obligations.AnswersArrive : Prop :=
  ∀ (s : State) (src : UnitId) (m : Msg) (rest : List Msg) (l : Line),
    let d0 : Dev := { s.dev with net := rest }
    (∀ (p n home set : Nat) (e : MissEntry) (q : Requester) (secs valid : BitVec 4) (data : LineData) (replica : Bool), src = .slice home →
      Arrives s src 2 p n m rest → m.body = .fill l valid data replica → s.dev.place p l = some (home, set) → (s.dev.slice n).miss = [e] → e.line = l →
      e.reqs = [(q, secs)] → secs &&& ~~~valid = 0 → (s.dev.slice n).nearq = [] →
      let d1 := d0.setSlice n { s.dev.slice n with miss := [] }
      (replica = false → Gives s (.fill src (.slice n)) (d1.deliver q l valid data))
      ∧ (replica = true → e.invSeen = true → Gives s (.fill src (.slice n))
          (((d0.send { src := .slice n, dst := src, rid := 0, body := .evn l }).setSlice n { s.dev.slice n with miss := [] }).deliver q l valid data)))
    ∧ (∀ (p die core : Nat) (g : Group) (o : OutAccess) (old : List (Nat × DWord)) (r : Bool × Nat × Nat), s.dev.partOfStack die = some p →
      s.dev.partRuns p = true → takeFirst src (.core die core) 1 s.dev.net = some (m, rest) →
      let key := coreKey die core
      let co := s.dev.core key
      (m.body = .ack l → Gives s (.ack src (.core die core)) (d0.setCore key { co with outs := co.outs.filter (fun x => x.id != m.rid) }))
      ∧ (m.body = .atmRsp l old → co.outs = [o] → o.id = m.rid → o.dst = some r → s.dev.group o.gkey = some g → bumps o.sem o.scope = false →
        Gives s (.atmRsp src (.core die core)) ((d0.setGroup o.gkey (writeOld g r old)).setCore key { co with outs := [] }))
      ∧ (m.body = .held l → Gives s (.held src (.core die core))
          (d0.setCore key { co with outs := co.outs.map (fun x => if x.id = m.rid then { x with held := true } else x) })))
    ∧ (∀ (p n : Nat), Arrives s src 0 p n m rest → m.body = .inv l →
      ∃ t, Next s (.inv src (.slice n)) t ∧ t.dev.mem = s.dev.mem ∧ t.dev.net = rest ++ [{ src := .slice n, dst := src, rid := 0, body := .invAck l }]
        ∧ (∀ e ∈ (t.dev.slice n).miss, e.line = l → e.invSeen = true) ∧ (t.dev.slice n).ways = (s.dev.slice n).ways)
    ∧ (∀ (p n x set k : Nat) (w : Way), src = .slice x → s.dev.place p l = some (n, set) →
      (s.dev.slice n).findWay set (s.dev.homeWays p) l = some (k, w) →
      (∀ a, Arrives s src 1 p n m rest → m.body = .invAck l → (s.dev.slice n).awaitOf l = some a → a.inv = 1#8 <<< (x / 16) → x < 128 → a.bi = none →
        a.channel = 0 → a.d2h = none → a.victim = false → (s.dev.slice n).waitq = [] →
        ∃ t, Next s (.invAck src (.slice n)) t ∧ t.dev.mem = s.dev.mem ∧ t.dev.net = rest
          ∧ Holds t.dev p n set k l w.data w.valid w.dirty (w.sharers &&& ~~~(1#8 <<< (x / 16))) w.hostS w.hostE)
      ∧ (Arrives s src 0 p n m rest → m.body = .evn l → Gives s (.evn src (.slice n))
          (d0.setSlice n ((s.dev.slice n).setWay k { w with sharers := w.sharers &&& ~~~(1#8 <<< (x / 16)) }))))

/-! ### Timers, channels, spills -/

/-- HOLD_NOTICE_TIMER, CHANNEL_READ_DATA, COHERENCE_RESPONSE_TIMEOUT, SPILL_WAIT_RESUME (08 R263, R280, 09 R295, R300). -/
def Obligations.HomeTimersAndReads : Prop :=
  (∀ (s : State) (n idx : Nat) (r : HomeReq), (s.dev.slice n).waitq[idx]? = some r → (s.dev.slice n).isOpen r.line = true → r.held = false →
    r.kind.fromHost = false → (∀ q secs hint, r.kind ≠ .near q secs hint) → r.arrived + 100000 ≤ s.dev.coh → s.dev.inj.aim ≠ some (9, n) →
    Gives s (.holdNoticeTimer n idx) ((s.dev.setSlice n { s.dev.slice n with waitq := (s.dev.slice n).waitq.set idx { r with held := true } }).send
      { src := .slice n, dst := r.src, rid := r.rid, acct := r.acct, body := .held r.line }))
  ∧ (∀ (s : State) (n line p set k : Nat) (errs : List SymErr) (a : Await) (w : Way) (d1 : Dev) (data : LineData), s.dev.partOfSlice n = some p →
    s.dev.partRuns p = true → s.dev.stage < 4 → s.dev.inj.aim = none → (s.dev.slice n).awaitOf ⟨false, line⟩ = some a → a.channel ≠ 0 → a.inv = 0 →
    a.bi = none → a.d2h = none → a.victim = false → (s.dev.slice n).waitq = [] → s.dev.place p ⟨false, line⟩ = some (n, set) →
    (s.dev.slice n).findWay set (s.dev.homeWays p) ⟨false, line⟩ = some (k, w) → s.dev.channelRead p line a.channel errs none = ⟨d1, some data⟩ →
    d1.slices = s.dev.slices → d1.conf = s.dev.conf →
    ∃ t, Next s (.channelReadData n line errs) t ∧ t.dev.mem = d1.mem ∧ t.dev.net = d1.net
      ∧ Holds t.dev p n set k ⟨false, line⟩ (mergeLine (sectorMask (a.channel &&& ~~~w.valid)) w.data data) (w.valid ||| a.channel) w.dirty
          w.sharers w.hostS w.hostE)
  ∧ (∀ (s : State) (u : UnitId) (line st p code who : Nat), unitStack u = some st → s.dev.partOfStack st = some p → s.dev.partRuns p = true →
    s.dev.lateAnswer p u line = some (code, who) → s.dev.inj.fired = false → Gives s (.coherenceResponseTimeout u line) (s.dev.detectedIn p 0x93
      { time := s.dev.time, kind := 1, detector := 9, partition := p, unit := who, location := locOf 9 who
        detail := BitVec.ofNat 64 (code + (line % 2 ^ 45) * 16) }))
  ∧ (∀ (s : State) (n p set : Nat) (r : HomeReq) (y : Shadow) (desc : RedDesc) (elems : List (Nat × DWord)), s.dev.partOfSlice n = some p →
    s.dev.partRuns p = true → (s.dev.slice n).waitq = [r] → r.kind = .redc desc elems false → s.dev.place p r.line = some (n, set) →
    (s.dev.slice n).slotOf r.line = some y → desc = y.desc → y.desc.count = 0 → s.dev.inj.aim ≠ some (9, n) →
    ∃ t y', Next s (.spillWaitResume n) t ∧ (t.dev.slice n).waitq = [] ∧ (t.dev.slice n).slotOf r.line = some y' ∧ y'.received = y.received + 1
      ∧ y'.fields = addFields y.desc.cls y.fields elems ∧ t.dev.mem = s.dev.mem
      ∧ t.dev.net = s.dev.net ++ [{ src := .slice n, dst := r.src, rid := r.rid, acct := r.acct, body := .ack r.line }])

/-! ### The host at device memory -/

/-- CXL.mem requests of the host at a device line that stands at its home (08 R267, R272, 13 R409, R410): reads answer the
half line, or a completion, and MetaValue sets the host's bits; writes merge and are completed; for a partition that is
DOWN a read answers poisoned data; while a partition is contained requests are held; back-invalidate responses end the
wait and clear or keep the host's copy. -/
def Obligations.HostMemory : Prop :=
  (∀ (s : State) (hpa p pa n set k : Nat) (w : Way), HostReaches s hpa p pa n set k w →
    let l : Line := ⟨false, pa / 128⟩
    let half := pa / 64 % 2
    let at' := s.dev.hpaOf (pa / 128) + 64 * half
    let data := HostMsg.memData at' (halfOf w.data half) false
    (halfSectors half &&& ~~~w.valid = 0 → w.hostE = false →
      (∃ t, Next s (.memrd hpa .s) t ∧ t.dev.toHost = s.dev.toHost ++ [data] ∧ t.dev.mem = s.dev.mem
        ∧ Holds t.dev p n set k l w.data w.valid w.dirty w.sharers true false)
      ∧ (∃ t, Next s (.memrddata hpa .i) t ∧ t.dev.toHost = s.dev.toHost ++ [data] ∧ t.dev.mem = s.dev.mem
        ∧ Holds t.dev p n set k l w.data w.valid w.dirty w.sharers w.hostS false)
      ∧ (∃ t, Next s (.meminv hpa .i) t ∧ t.dev.toHost = s.dev.toHost ++ [.cmp at'] ∧ t.dev.mem = s.dev.mem
        ∧ Holds t.dev p n set k l w.data w.valid w.dirty w.sharers w.hostS false)
      ∧ (Alone1 w → ∃ t, Next s (.memrd hpa .a) t ∧ t.dev.toHost = s.dev.toHost ++ [data] ∧ Holds t.dev p n set k l w.data w.valid w.dirty 0 false true))
    ∧ (Alone1 w → ∀ (x : BitVec 512) (be : BitVec 64),
      let mask := fun (b : BitVec 64) => BitVec.ofNat 128 (b.toNat * 2 ^ (64 * half))
      let line := BitVec.ofNat 1024 (x.toNat * 2 ^ (512 * half))
      (∃ t, Next s (.memwr hpa x .i) t ∧ t.dev.toHost = s.dev.toHost ++ [.cmp (s.dev.hpaOf (pa / 128))] ∧ t.dev.mem = s.dev.mem
        ∧ Holds t.dev p n set k l (mergeLine (mask (BitVec.allOnes 64)) w.data line) (w.valid ||| sectorsOf (mask (BitVec.allOnes 64)))
            (w.dirty ||| sectorsOf (mask (BitVec.allOnes 64))) 0 false false)
      ∧ (sectorsOf (mask be) &&& ~~~sectorsCovered (mask be) &&& ~~~w.valid = 0 →
        ∃ t, Next s (.memwrptl hpa x be .s) t ∧ t.dev.toHost = s.dev.toHost ++ [.cmp (s.dev.hpaOf (pa / 128))] ∧ t.dev.mem = s.dev.mem
          ∧ Holds t.dev p n set k l (mergeLine (mask be) w.data line) (w.valid ||| sectorsOf (mask be)) (w.dirty ||| sectorsOf (mask be)) 0 true false))
    ∧ Gives s (.memclnevct hpa) ((s.dev.setSlice n ((s.dev.slice n).setWay k { w with hostS := false, hostE := false })).tell (.cmp (hpa / 64 * 64))))
  ∧ (∀ (s : State) (hpa : Nat) (mv : Meta) (x : BitVec 512), (s.dev.memReq hpa = .down →
      Gives s (.memrd hpa mv) (s.dev.tell (.memData (hpa / 64 * 64) 0 true)) ∧ Gives s (.memwr hpa x mv) (s.dev.tell (.cmp (hpa / 64 * 64))))
    ∧ (s.dev.memReq hpa = .held → Gives s (.memrd hpa mv) (s.dev.hold (.rd hpa mv true)) ∧ Gives s (.memclnevct hpa) (s.dev.hold (.clean hpa)))
    ∧ (s.dev.memReq hpa = .gone → Gives s (.memrd hpa mv) s.dev))
  ∧ (∀ (s : State) (hpa p pa n set k : Nat) (w : Way) (a : Await), s.dev.linkUp = true → s.dev.dpaOf hpa = some (p, pa) → s.dev.partRuns p = true →
    s.dev.inj.aim = none → s.dev.place p ⟨false, pa / 128⟩ = some (n, set) → (s.dev.slice n).findWay set (s.dev.homeWays p) ⟨false, pa / 128⟩ = some (k, w) →
    (s.dev.slice n).awaitOf ⟨false, pa / 128⟩ = some a → a.inv = 0 → a.channel = 0 → a.d2h = none → a.victim = false → (s.dev.slice n).waitq = [] →
    (a.bi.isSome → ∃ t, Next s (.birspi hpa) t ∧ t.dev.mem = s.dev.mem ∧ Holds t.dev p n set k ⟨false, pa / 128⟩ w.data w.valid w.dirty w.sharers false false)
    ∧ (a.bi = some .data → ∃ t, Next s (.birsps hpa) t ∧ t.dev.mem = s.dev.mem
        ∧ Holds t.dev p n set k ⟨false, pa / 128⟩ w.data w.valid w.dirty w.sharers true false)
    ∧ (a.bi = some .inv → Gives s (.birsps hpa) s.dev))

/-- Host snoops of a host line at its proxy slice, and the host's answer to a request of the slice (08 R274). -/
def Obligations.HostCache : Prop :=
  (∀ (s : State) (p hpa n set k : Nat) (w : Way), s.dev.linkUp = true → (s.dev.pconf p).isSome → s.dev.partRuns p = true →
    AtRest s.dev p n set k ⟨true, hpa / 128⟩ w →
    let to' := fun (st : Mesi) (data : Option LineData) => s.dev.toHost ++ [HostMsg.snpRsp p (hpa / 128 * 128) st data]
    let dirty := if w.mesi = .m then some w.data else none
    (w.mesi ≠ .i → ∃ t w', Next s (.snpdata p hpa) t ∧ t.dev.toHost = to' .s dirty
        ∧ (t.dev.slice n).findWay set (t.dev.homeWays p) ⟨true, hpa / 128⟩ = some (k, w') ∧ w' = { w with mesi := .s })
    ∧ (∃ t, Next s (.snpinv p hpa) t ∧ t.dev.toHost = to' .i dirty ∧ sfind (t.dev.slice n).ways k = none ∧ t.dev.mem = s.dev.mem)
    ∧ (∃ t, Next s (.snpcur p hpa) t ∧ t.dev.toHost = to' w.mesi dirty ∧ (t.dev.slice n).ways = (s.dev.slice n).ways))
  ∧ (∀ (s : State) (p hpa n set k : Nat) (w : Way) (a : Await) (grant : Mesi) (data : LineData), s.dev.linkUp = true → s.dev.partRuns p = true →
    s.dev.inj.aim = none → s.dev.place p ⟨true, hpa / 128⟩ = some (n, set) → (s.dev.slice n).findWay set (s.dev.homeWays p) ⟨true, hpa / 128⟩ = some (k, w) →
    (s.dev.slice n).awaitOf ⟨true, hpa / 128⟩ = some a → a.d2h = some .rdOwn ∨ a.d2h = some .rdShared → a.inv = 0 → a.channel = 0 → a.bi = none →
    a.victim = false → (s.dev.slice n).waitq = [] → grant ≠ .i →
    ∃ t w', Next s (.hostCacheResponse p hpa grant data) t ∧ (t.dev.slice n).findWay set (t.dev.homeWays p) ⟨true, hpa / 128⟩ = some (k, w')
      ∧ w' = { w with mesi := grant, valid := 15, data := data } ∧ (t.dev.slice n).awaitOf ⟨true, hpa / 128⟩ = none ∧ t.dev.mem = s.dev.mem)

/-! ### Memory channels -/

/-- The background work of a channel (10 R314, R318, R319, R321, R323): a scheduled correction is written, the due bank is
refreshed or postponed while it is read, at most 8 times, a poll sets the multiplier never below the floor, patrol scrub
reads line after line, a recalibration notes its lateness, and one that fails makes the channel unusable.
The code of a memory burst (10 R310, R311): no error leaves the sector as it is, and an error in one symbol, of any value
but 0, is corrected to the data written. -/
def Obligations.ChannelWork : Prop :=
  (
  ∀ (s : State) (c : Nat), s.dev.chanUp c = true →
    let x := s.dev.chan c
    (∀ ca rest, x.corrections = ca :: rest → x.unusable = false →
      ∃ t, Next s (.correctionWrite c) t ∧ (t.dev.chan c).corrections = rest ∧ t.dev.mem = s.dev.mem)
    ∧ (s.dev.bankBusy c x.refreshBank = false ∨ 8 ≤ x.postponed →
        Gives s (.refresh c x.refreshBank) (s.dev.setChan c { x with refreshBank := (x.refreshBank + 1) % 16, postponed := 0 }))
    ∧ (s.dev.bankBusy c x.refreshBank = true → x.postponed < 8 →
        Gives s (.refresh c x.refreshBank) (s.dev.setChan c { x with postponed := x.postponed + 1 }))
    ∧ (∀ readout, c % 32 = 0 → ∃ t, Next s (.refreshRatePoll (c / 32) readout) t ∧ t.dev.mem = s.dev.mem
        ∧ (∀ k, k < 32 → (t.dev.chan (c + k)).refresh = if readout ≥ 3 then 3 else max s.dev.conf.refreshFloor readout)
        ∧ (∀ k, k < c ∨ c + 32 ≤ k → t.dev.chan k = s.dev.chan k))
    ∧ (x.unusable = false → s.dev.inj.armed = none → ∃ t, Next s (.patrolScrubRead c []) t ∧ (t.dev.chan c).scrubLine = (x.scrubLine + 1) % 2 ^ 24
        ∧ t.dev.mem = s.dev.mem ∧ t.dev.net = s.dev.net ∧ t.dev.groups = s.dev.groups)
    ∧ (x.unusable = false → s.dev.clusterBusy c = false →
      let late := max x.recalLate (min ((s.dev.time - s.dev.recalDue c) / 1000) 0xFFFF)
      (s.dev.recalDue c ≤ s.dev.time → s.dev.chanReads c = [] →
        Gives s (.recalibration c true) (s.dev.setChan c { x with recalAt := s.dev.time, recalLate := late }))
      ∧ (s.dev.time < s.dev.recalDue c → Gives s (.recalibration c true) s.dev)
      ∧ (s.dev.recalDue c + 8000000 ≤ s.dev.time →
        Gives s (.recalibrationOverdue c true) (s.dev.setChan c { x with recalAt := s.dev.time, recalLate := late })
        ∧ ∃ t, Next s (.recalibrationOverdue c false) t ∧ (t.dev.chan c).unusable = true)))
  ∧ (
  ∀ (n data : Nat), data < 2 ^ 256 →
    readSector n data [] = .clean
    ∧ ∀ j e, j < 36 → 0 < e → e < 256 → readSector n data [(j, e)] = .corrected (BitVec.ofNat 256 data))

/-! ### Seif ports -/

/-- SEIF_TRAINING, LANE_LOSS_OF_LOCK, RETRAIN and LANE_CHANGE (15 R442, R444-R446): a port that trains comes UP on the
lanes that are good, goes DOWN without a peer or lanes, and shows MISMATCH for another peer than the one expected; a
lane that loses lock starts a retrain, which keeps the retry buffer and resends it. Which lanes a port uses follows from the
good ones alone: eight, else a good half, else the lowest good pair, else none. -/
def Obligations.SeifPorts : Prop :=
  (∀ (s : State) (n : Nat) (peer : SeifPeer),
    let x := s.dev.port n
    let l := chooseLanes (peer.good &&& ~~~x.lost)
    (s.dev.power.rails.seif = true → s.dev.portEnabled n = true →
      (x.state = .training ∧ x.retraining = false ∨ x.state = .down ∧ x.downAt + 1000000000 ≤ s.dev.time) →
      (peer.present = false ∨ l = 0 → ∃ t, Next s (.seifTraining n peer) t ∧ t.dev.port n = { x with state := .down, lanes := 0, downAt := s.dev.time })
      ∧ (peer.present = true → l ≠ 0 → peerExpected (s.dev.portEntry n) peer = false → ∃ t, Next s (.seifTraining n peer) t
          ∧ t.dev.port n = { x with state := .mismatch, lanes := 0, peerModule := peer.modId, peerPort := peer.port })
      ∧ (peer.present = true → l ≠ 0 → peerExpected (s.dev.portEntry n) peer = true → ∃ t, Next s (.seifTraining n peer) t
          ∧ (t.dev.port n).state = .up ∧ (t.dev.port n).trained = l ∧ (t.dev.port n).lanes = (if s.dev.stage ≥ 1 then halfLanes l else l)
          ∧ (t.dev.port n).retry = [] ∧ (t.dev.port n).txSeq = 0 ∧ (t.dev.port n).rxSeq = 0
          ∧ (∀ k, k ≠ n → t.dev.port k = s.dev.port k) ∧ t.dev.net = s.dev.net ∧ t.dev.tasks = s.dev.tasks))
    ∧ (∀ lane, x.state = .up → lane < 8 → x.lanes.getLsbD lane = true → ∃ t, Next s (.laneLossOfLock n lane) t
        ∧ t.dev.port n = { x with state := .training, retraining := true, lanes := 0, retrains := min (x.retrains + 1) 0xFFFF })
    ∧ (x.retraining = true → x.txq = [] → x.sinceNull + x.retry.length < 4095 → peer.present = true → l ≠ 0 →
        peerExpected (s.dev.portEntry n) peer = true → ∃ t, Next s (.retrain n peer) t
        ∧ (t.dev.port n).state = .up ∧ (t.dev.port n).retraining = false ∧ (t.dev.port n).lost = x.lost ||| ~~~peer.good ∧ (t.dev.port n).trained = l
        ∧ (t.dev.port n).retry = x.retry ∧ t.dev.tasks = s.dev.tasks
        ∧ (t.dev.port n).wire.map (fun f => (f.kind, f.seq, f.msgs))
            = x.wire.map (fun f => (f.kind, f.seq, f.msgs)) ++ x.retry.map (fun f => (0, f.seq, f.msgs)))
    ∧ (∀ lanes, x.state = .up → BitVec.ofNat 8 lanes = halfLanes x.lanes ∨ BitVec.ofNat 8 lanes = x.trained →
        (BitVec.ofNat 8 lanes = x.lanes → Gives s (.laneChange n lanes) s.dev)
        ∧ (BitVec.ofNat 8 lanes ≠ x.lanes → ∃ t, Next s (.laneChange n lanes) t
          ∧ t.dev.port n = ({ x with lanes := BitVec.ofNat 8 lanes } : Port).emit 3 0 false [])))
  ∧ (∀ good : BitVec 8, chooseLanes good =
      if good = 0xFF then 0xFF
      else if good &&& 0x0F = 0x0F then 0x0F
      else if good &&& 0xF0 = 0xF0 then 0xF0
      else if good &&& 0x03 = 0x03 then 0x03
      else if good &&& 0x0C = 0x0C then 0x0C
      else if good &&& 0x30 = 0x30 then 0x30
      else if good &&& 0xC0 = 0xC0 then 0xC0
      else 0)
  ∧ (∀ good : BitVec 8, halfLanes (chooseLanes good) ∈ [(0x0F : BitVec 8), 0x03, 0x30, 0x0C, 0xC0, 0])

/-- PAYLOAD, NAK, NULL_FLIT and NULL_TIMER (15 R443, R447-R451): a flit in order is taken and its messages wait for their
unit; one out of order, or damaged, is discarded and answered with a NAK that names the last in order; a NAK has every flit past
it sent again, and calls a retrain after 16 times; an acknowledgement frees the flits it covers; a message in transit
loses a hop, and is dropped without one. A message sent takes a place in the retry buffer. -/
def Obligations.SeifFlits : Prop :=
  (∀ (s : State) (n : Nat) (f : SeifFlit), s.dev.inj.aim = none → (s.dev.port n).state = .up →
    let x := s.dev.port n
    let y := (x.take f.ack f.ctrlCredits f.bulkCredits).pump
    (f.crcOk = false → ∃ t, Next s (.payload n f) t ∧ t.dev.port n = x.emit 2 0 false [] ∧ (∀ k, k ≠ n → t.dev.port k = s.dev.port k))
    ∧ (f.crcOk = true → f.seq ≠ x.rxSeq → Gives s (.payload n f) (s.dev.setPort n (y.emit 2 0 false [])))
    ∧ ((x.emit 2 0 false []).wire.getLast?.map (fun w => (w.kind, w.ack)) = some (2, (x.rxSeq + 4095) % 4096))
    ∧ (∀ m p, f.crcOk = true → f.seq = x.rxSeq → f.msgs = [m] → s.dev.partOfPort n = some p → s.dev.addressed m = some p →
      (m.dstModule = s.dev.conf.moduleId → Gives s (.payload n f) (s.dev.setPort n { y with
        rxSeq := (x.rxSeq + 1) % 4096
        ctrlIn := if f.bulk then y.ctrlIn else y.ctrlIn ++ [{ msg := m, last := true }]
        bulkIn := if f.bulk then y.bulkIn ++ [{ msg := m, last := true }] else y.bulkIn }))
      ∧ (m.dstModule ≠ s.dev.conf.moduleId →
        let z : Port := { y with rxSeq := (x.rxSeq + 1) % 4096
                                 ctrlBack := if f.bulk then y.ctrlBack else y.ctrlBack + 1
                                 bulkBack := if f.bulk then y.bulkBack + 1 else y.bulkBack }
        (m.hops = 0 → Gives s (.payload n f) (s.dev.setPort n { z with hopDrops := (y.hopDrops + 1) % 2 ^ 32 }))
        ∧ (0 < m.hops → (s.dev.setPort n z).portsTo none 0xFFFF m.dstModule = [] →
          Gives s (.payload n f) (s.dev.setPort n { z with misroutes := (y.misroutes + 1) % 2 ^ 32 }))
        ∧ (∀ e, 0 < m.hops → (s.dev.setPort n z).seifSend none 0xFFFF { m with hops := m.hops - 1 } = some e → Gives s (.payload n f) e))))
  ∧ (∀ (s : State) (n ack : Nat), s.dev.inj.aim = none → (s.dev.port n).state = .up → (s.dev.port n).txq = [] →
    let x := s.dev.port n
    let y := x.take ack 0 0
    let burst := (if s.dev.time < x.burstAt + 1000000 then x.burst else 0) + y.retry.length
    y.retry ≠ [] → x.sinceNull + y.retry.length < 4095 → burst ≤ 1024 →
    (y.oldResent + 1 < 16 → ∃ t, Next s (.nak n ack) t ∧ (t.dev.port n).state = .up ∧ (t.dev.port n).retry = y.retry
      ∧ (t.dev.port n).oldResent = y.oldResent + 1 ∧ (t.dev.port n).resent = x.resent + y.retry.length
      ∧ (t.dev.port n).wire.map (fun f => (f.kind, f.seq, f.msgs))
          = x.wire.map (fun f => (f.kind, f.seq, f.msgs)) ++ y.retry.map (fun f => (0, f.seq, f.msgs)))
    ∧ (16 ≤ y.oldResent + 1 → ∃ t, Next s (.nak n ack) t ∧ (t.dev.port n).state = .training ∧ (t.dev.port n).retraining = true
      ∧ (t.dev.port n).retry = y.retry))
  ∧ (∀ (s : State) (n ack ctrl bulk : Nat), (s.dev.port n).state = .up →
    Gives s (.nullFlit n ack ctrl bulk) (s.dev.setPort n ((s.dev.port n).take ack ctrl bulk).pump)
    ∧ (s.dev.inj.aim = none → Gives s (.nullTimer n) (s.dev.setPort n ((s.dev.port n).emit 1 0 false []))))
  ∧ (∀ (x : Port) (a b : List SentFlit) (f : SentFlit) (base ctrl bulk : Nat), x.retry = a ++ f :: b → x.retry.length ≤ 4095 →
    (∀ k g, x.retry[k]? = some g → g.seq = (base + k) % 4096) → (x.take f.seq ctrl bulk).retry = b ∧ (x.take f.seq ctrl bulk).oldResent = 0)
  ∧ (∀ (d : Dev) (part : Option Nat) (mask k : Nat) (m : SeifMsg),
    (d.portsTo part mask m.dstModule = [] → d.seifSend part mask m = none)
    ∧ (d.portsTo part mask m.dstModule = [k] → (d.port k).state = .up → (d.port k).txq = [] → (d.port k).retry.length < 4095 → (d.port k).sinceNull < 4095 →
      (if seifBulk m then (d.port k).bulkUsed else (d.port k).ctrlUsed) < seifRoom (seifBulk m) →
      let x := d.port k
      ∃ e, d.seifSend part mask m = some e ∧ (e.port k).retry = x.retry ++ [{ seq := x.txSeq, bulk := seifBulk m, msgs := [m] }]
        ∧ (e.port k).txSeq = (x.txSeq + 1) % 4096 ∧ (e.port k).txq = [] ∧ e.mem = d.mem
        ∧ (e.port k).wire.map (fun f => (f.kind, f.seq, f.ack, f.bulk, f.msgs))
            = x.wire.map (fun f => (f.kind, f.seq, f.ack, f.bulk, f.msgs)) ++ [(0, x.txSeq, (x.rxSeq + 4095) % 4096, seifBulk m, [m])]))

/-! ### Messages over Seif -/

/-- PUT_DATA, GET_REQ and SIGNAL at their target (15 R454-R456, R465): each is performed and answered, a failed
translation is answered REMOTE_FAULT, a target that does not run is answered REMOTE_LOST and changes no memory; at sag
stage 4 they wait. -/
def Obligations.SeifRequests : Prop :=
  ∀ (s : State) (n p : Nat) (m : SeifMsg) (cmd : Instr) (bulk : Bool) (type : Nat), SeifHead s n bulk type p m →
    (cmd = .putData n ∧ bulk = true ∧ type = mtPutData ∨ cmd = .getReq n ∧ bulk = false ∧ type = mtGetReq
      ∨ cmd = .signal n ∧ bulk = false ∧ type = mtSignal) →
    (s.dev.targetTakes p m = false → Gives s cmd ((s.dev.answerSeif p m mtNack 0xA2).dropIn n bulk))
    ∧ (s.dev.targetTakes p m = true → 4 ≤ s.dev.stage → Gives s cmd s.dev)
    ∧ (s.dev.targetTakes p m = true → s.dev.stage < 4 → ∀ (d1 : Dev) (v : Nat), d1.inj.aim = none →
      (cmd = .putData n →
        (s.dev.cpWriteAll p (msgFn p m) (msgVa m) (16 * m.dlen) (ofBytes m.data) = (d1, .ok v) → Gives s cmd ((d1.answerSeif p m mtPutAck 1).dropIn n true))
        ∧ (s.dev.cpWriteAll p (msgFn p m) (msgVa m) (16 * m.dlen) (ofBytes m.data) = (d1, .fault) →
            Gives s cmd ((d1.answerSeif p m mtNack 0xA3).dropIn n true)))
      ∧ (cmd = .getReq n → m.w1.toNat < 2 ^ 56 → 1 ≤ m.dlen → m.dlen ≤ 14 →
        (∀ e, s.dev.cpRead p (msgFn p m) (msgVa m) (16 * m.dlen) = (d1, .ok v) →
          d1.seifSend (some p) 0xFFFF { dstModule := m.srcModule, dpart := if m.function < 0x100 then 0 else m.spart, srcModule := s.dev.conf.moduleId,
                                        spart := p, type := mtGetData, function := m.function, handle := m.handle, w1 := m.w1, dlen := m.dlen,
                                        data := toBytes v (16 * m.dlen) } = some e → d1.conf = s.dev.conf →
          Gives s cmd (e.dropIn n false))
        ∧ (s.dev.cpRead p (msgFn p m) (msgVa m) (16 * m.dlen) = (d1, .fault) → Gives s cmd ((d1.answerSeif p m mtNack 0xA3).dropIn n false)))
      ∧ (cmd = .signal n →
        (s.dev.signal p (msgFn p m) (msgVa m) m.operand.toNat m.opMax = (d1, .ok v) → Gives s cmd ((d1.answerSeif p m mtSignalAck 0).dropIn n false))
        ∧ (s.dev.signal p (msgFn p m) (msgVa m) m.operand.toNat m.opMax = (d1, .fault) → Gives s cmd ((d1.answerSeif p m mtNack 0xA3).dropIn n false))))

/-- PUT, GET, PUT_ACK, GET_DATA, SIGNAL_ACK and NACK at the module that transfers (15 R453-R456): a PUT sends its bytes
and ends when all are acknowledged and its remote signal has been performed, a GET ends when its last byte is written;
without a usable port a transfer ends with SEIF_UNREACHABLE, and a NACK ends it with the status it carries. -/
def Obligations.SeifTransfers : Prop :=
  (∀ (s : State) (q i p : Nat) (t : Task) (cmd : Instr) (cls : Nat), (cmd = .put q i ∧ cls = clsPut ∨ cmd = .get q i ∧ cls = clsGet) →
    Works s q i cls p t → t.work = .none → s.dev.transferOk t = true → t.body 2 ≤ 224 →
    let h := s.dev.takeHandle
    (h.2.portReady p (t.aux16 % 4096) = none → s.dev.inj.aim = none →
      ∃ u, Next s cmd u ∧ Done { t with work := .transfer h.1 0 0 false } q i 0xA4 (s.dev.infoSoFar { t with work := .transfer h.1 0 0 false }) u)
    ∧ (h.2.portReady p (t.aux16 % 4096) = some true → ∀ d1 v e, e.inj.aim = none →
      (cls = clsPut → h.2.cpRead p (s.dev.fnOfQueue t.q) (t.body 0) (t.body 2) t.acct = (d1, .ok v) →
        d1.seifSend (some p) 0xFFFF { d1.transferMsg p t h.1 mtPutData (t.body 1) with dlen := t.body 2 / 16, data := toBytes v (t.body 2) } = some e →
        Gives s cmd (e.setTask { t with work := .transfer h.1 (t.body 2) 0 false }))
      ∧ (cls = clsGet → h.2.seifSend (some p) 0xFFFF { h.2.transferMsg p t h.1 mtGetReq (t.body 0 % 2 ^ 56) with dlen := t.body 2 / 16 } = some e →
        Gives s cmd (e.setTask { t with work := .transfer h.1 (t.body 2) 0 false }))))
  ∧ (∀ (s : State) (n p : Nat) (m : SeifMsg) (t : Task) (h sent bytes : Nat) (sig : Bool), s.dev.transferTask m.handle = some t →
    t.work = .transfer h sent bytes sig → t.aux16 % 4096 = m.srcModule →
    (SeifHead s n false mtPutAck p m → t.cls = clsPut →
      let b := min (t.body 2) (bytes + 224 * (m.w1.toNat % 2 ^ 32))
      let t1 : Task := { t with work := .transfer h sent b sig }
      (b < t.body 2 → Gives s (.putAck n) ((s.dev.setTask t1).dropIn n false))
      ∧ (b = t.body 2 → sig = false → t.aux16 < 2 ^ 15 → Gives s (.putAck n) ((s.dev.workDone t1 0 (t.body 2)).dropIn n false))
      ∧ (∀ e, b = t.body 2 → sig = false → 2 ^ 15 ≤ t.aux16 → t.fenceUsed 3 = true →
        s.dev.seifSend (some p) 0xFFFF { s.dev.transferMsg p t h mtSignal (t.fenceVa 3) with operand := BitVec.ofNat 64 (t.fenceVal 3), opMax := t.fop.testBit 5 } = some e →
        Gives s (.putAck n) ((e.setTask { t with work := .transfer h sent b true }).dropIn n false)))
    ∧ (SeifHead s n false mtSignalAck p m → sig = true → Gives s (.signalAck n) ((s.dev.workDone t 0 (t.body 2)).dropIn n false))
    ∧ (SeifHead s n false mtNack p m → Gives s (.nack n) ((s.dev.workDone t (m.w1.toNat % 2 ^ 16) (s.dev.infoSoFar t)).dropIn n false))
    ∧ (∀ d1 v, SeifHead s n true mtGetData p m → t.cls = clsGet → s.dev.stage < 4 → s.dev.partRuns p = true →
      s.dev.cpWriteAll p (s.dev.fnOfQueue t.q) (t.body 1 + (msgVa m - t.body 0)) (16 * m.dlen) (ofBytes m.data) t.acct = (d1, .ok v) → d1.inj.aim = none →
      let b := min (t.body 2) (bytes + 16 * m.dlen)
      let t1 : Task := { t with work := .transfer h sent b sig }
      (b = t.body 2 → Gives s (.getData n) ((d1.workDone t1 0 b).dropIn n true))
      ∧ (b ≠ t.body 2 → Gives s (.getData n) ((d1.setTask t1).dropIn n true))))

/-! ### Collectives -/

/-- COLLECTIVE, COLL_READY, COLL_DATA and COLL_ABORT (15 R457-R462, R465): at release a collective sends COLL_READY to the
rank its first step receives from; a rank's COLL_READY has the step's data sent to it; data enters the buffer; COLL_ABORT
ends the collective; a message of a collective not yet released is kept, 64 for an engine.
The schedules of R459 and R460 agree between ranks: in every step of every kind, what a rank sends to another is
what the other receives from it, position for position (for ALL_TO_ALL, whose send and receive buffers differ, in
number). -/
def Obligations.Collectives : Prop :=
  (
  (∀ (s : State) (q i p v k n : Nat) (t : Task) (d1 d2 d3 d4 e : Dev) (head comm : Nat) (c c1 : Coll) (r : Nat) (pos : List Nat),
    Works s q i clsCollective p t → s.dev.seif.colls = [] → t.body 0 % 64 = 0 →
    s.dev.cpRead p (s.dev.fnOfQueue q) (t.body 0) 64 t.acct = (d1, .ok head) →
    d1.cpRead p (s.dev.fnOfQueue q) (t.body 0) (64 + 4 * (min (bytesAt head 6 2) 4096)) t.acct = (d2, .ok comm) →
    d2.mkColl p t comm = some c → n = c.ranks.length → k = collSource c.kind n c.count (c.me == c.root) →
    d2.cpRead p c.fn (t.body 1) (dtypeSize c.dtype * k) t.acct = (d3, .ok v) →
    d3.takeEarly { c with buf := collBuffer c.kind n c.me c.count (unpackElems (dtypeSize c.dtype) v k) } = (d4, c1, false) →
    d4.coresIssue = true → d4.seif.colls = [] → c1.readies = [] → 0 < collSteps c.kind n → c1.plan.recvs = [(r, pos)] →
    let d5 : Dev := { d4.setTask { t with work := .collective } with seif := { d4.seif with colls := [c1] } }
    d5.seifSend (some c.part) c.ports (d5.collMsg c1 r mtReady (c.commId + c.seq * 2 ^ 16)) = some e → e.inj.aim = none →
    Gives s (.collective q i) (e.setColl { c1 with began := true, start := d5.time }))
  ∧ (∀ (s : State) (n p r : Nat) (m : SeifMsg) (c : Coll), OneColl s c →
    let mine := s.dev.collOf p m
    (SeifHead s n false mtReady p m → s.dev.targetTakes p m = true → ∀ e pos x, mine = some (c, r) → c.plan.sends = [(r, pos)] → c.sentTo = [] →
      m.w1.toNat / 2 ^ 48 % 256 = c.step % 256 → c.plan.recvs = [x] → c.got = [] →
      s.dev.sendData { c with readies := c.readies ++ [(r, c.step % 256)] } r pos (messagesFor c.dtype pos.length) 0 = some e → e.inj.aim = none →
      Gives s (.collReady n) ((e.setColl { c with readies := c.readies ++ [(r, c.step % 256)], sentTo := [r] }).dropIn n false))
    ∧ (SeifHead s n true mtCollData p m → s.dev.targetTakes p m = true → s.dev.stage < 4 → ∀ pos y, c.part = p → c.fn = msgFn p m →
      c.commId = m.w1.toNat % 2 ^ 16 → c.seq % 2 ^ 13 = m.handle → c.step % 256 = m.w1.toNat / 2 ^ 16 % 256 → c.plan.recvs = [(r, pos)] →
      (c.ranks.getD r (0, 0)).1 = m.srcModule → c.plan.sends = [y] → c.sentTo = [] → (∀ st, (y.1, st) ∉ c.readies) →
      let part := (pos.drop (m.w1.toNat / 2 ^ 24 % 2 ^ 32 * perMessage c.dtype)).take (perMessage c.dtype)
      Gives s (.collData n) ((s.dev.setColl { c with
        buf := placeElems c.op c.dtype c.plan.combine c.buf (part.zip (unpackElems (dtypeSize c.dtype) (ofBytes m.data) part.length))
        got := sset 0 c.got r (sget 0 c.got r + 1)
        waits := if (sfind c.waits n).isSome then c.waits else sset 0 c.waits n (s.dev.time - c.start + 1)
        slowest := r }).dropIn n true))
    ∧ (SeifHead s n false mtAbort p m → s.dev.targetTakes p m = true → ∀ t, mine = some (c, r) → s.dev.task c.q c.i = some t → t.cls = clsCollective →
      ∃ u, Next s (.collAbort n) u ∧ u.dev.seif.colls = [] ∧ u.dev.task c.q c.i = some { t with state := .done 0xA1 c.total }))
  ∧ (∀ (s : State) (n p : Nat) (m : SeifMsg) (abort : Bool), SeifHead s n false (if abort then mtAbort else mtReady) p m → s.dev.targetTakes p m = true →
    s.dev.collOf p m = none →
    let cmd : Instr := if abort then .collAbort n else .collReady n
    let held := (s.dev.seif.early.filter (fun e => e.engine == n / 4)).length
    let e : Early := { engine := n / 4, part := p, fn := msgFn p m, commId := m.w1.toNat % 2 ^ 16, seq := m.w1.toNat / 2 ^ 16 % 2 ^ 32
                       module := m.srcModule, step := m.w1.toNat / 2 ^ 48 % 256, abort := abort }
    (held < 64 → Gives s cmd (({ s.dev with seif := { s.dev.seif with early := s.dev.seif.early ++ [e] } } : Dev).dropIn n false))
    ∧ (64 ≤ held → Gives s cmd s.dev)))
  ∧ (
  ∀ (kind n a b count root step : Nat), 1 ≤ kind → kind ≤ 6 → a < n → b < n → root < n → step < collSteps kind n →
    (kind ≠ 5 → ∀ pos, (b, pos) ∈ (collPlan kind n a count root step).sends ↔ (a, pos) ∈ (collPlan kind n b count root step).recvs)
    ∧ (∀ k, (∃ pos, (b, pos) ∈ (collPlan kind n a count root step).sends ∧ pos.length = k)
        ↔ (∃ pos, (a, pos) ∈ (collPlan kind n b count root step).recvs ∧ pos.length = k)))

/-! ### Faults, containment, injection -/

/-- A loss of a running partition (12 R382-R384): it is CONTAINING, or DOWN for the causes that no restart follows and for
the third loss within 60 s; its groups, tasks, runs and cached lines are gone; its queues stand; FAULT_N is asserted; every
other partition keeps its state, groups and lines. -/
def Obligations.PartitionLoss : Prop :=
  ∀ (d : Dev) (p cause0 : Nat) (e : LogEntry), (d.part p).state = .running →
    let x := d.part p
    let cause := if (x.history.filter (fun t => decide (d.time < t + 60000000000))).length ≥ 2 ∧ causeDown cause0 = false then 0x99 else cause0
    let u := d.losePart p cause0 e
    u.part p = { x with state := if causeDown cause then .down else .containing
                        cause := cause
                        losses := (x.losses + 1) % 2 ^ 32
                        lossTime := d.time
                        history := (d.time :: x.history).take 3 }
    ∧ (∀ r, r ≠ p → u.part r = d.part r)
    ∧ (∀ k, u.group k = if d.partOfStack (dieOfKey k) = some p then none else d.group k)
    ∧ u.tasks = d.tasks.filter (fun t => d.partOfQueue t.q != some p) ∧ u.runs = d.runs.filter (fun r => r.part != p)
    ∧ (∀ n, u.slice n = if d.partOfSlice n = some p then {} else d.slice n)
    ∧ u.queues = d.queues ∧ u.conf = d.conf ∧ u.faults.faultN = true

/-- FAULT_REPORT (17 R494-R496, R500-R504): a masked report is counted and loses nothing; a detected one at a stack loses the
partition that holds it, at a Seif port takes the port DOWN, at the UCIe link takes the link down, at the hub stops the
module and loses every partition.
ARM and DISARM (17 R505-R507) and FLT_LOG_CONSUMED (20 R563): an ARM that is permitted copies target, locator and
pattern, one that is not is counted and arms nothing; the consumer index is taken between its old value and the producer's. -/
def Obligations.FaultsAndInjection : Prop :=
  (
  ∀ (s : State) (rep : FaultRep) (pl : Place), s.dev.live = true → s.dev.detPowered rep.detector rep.unit = true → rep.injected = false →
    detPlace rep.detector rep.unit = some pl →
    (rep.detected = false → ∃ t, Next s (.faultReport rep) t
      ∧ sget 0 t.dev.faults.masked rep.detector = (sget 0 s.dev.faults.masked rep.detector + 1) % 2 ^ 32
      ∧ t.dev.parts = s.dev.parts ∧ t.dev.groups = s.dev.groups ∧ t.dev.tasks = s.dev.tasks ∧ t.dev.ports = s.dev.ports ∧ t.dev.host = s.dev.host)
    ∧ (rep.detected = true → ∃ t, Next s (.faultReport rep) t
      ∧ sget 0 t.dev.faults.detected rep.detector = (sget 0 s.dev.faults.detected rep.detector + 1) % 2 ^ 32
      ∧ (∀ n p, pl = .stack n → s.dev.partOfStack n = some p → (s.dev.part p).state = .running → (s.dev.part p).history = [] →
          (t.dev.part p).state = .containing ∧ (t.dev.part p).cause = detCause rep.detector ∧ (∀ r, r ≠ p → t.dev.part r = s.dev.part r))
      ∧ (∀ n, pl = .seif n → (s.dev.port n).state = .up → (t.dev.port n).state = .down ∧ (t.dev.port n).retry = [] ∧ t.dev.parts = s.dev.parts)
      ∧ (pl = .ucie → t.dev.host.link = .down ∧ t.dev.parts = s.dev.parts)
      ∧ (pl = .hub → t.dev.faults.hubFault = true ∧ t.dev.faults.stopped = true
          ∧ ∀ p, p < 4 → (t.dev.part p).state = .absent ∨ (t.dev.part p).state = .down)))
  ∧ (
  ∀ (s : State), s.dev.barOpen 0 = true →
    (∀ ctl : DWord, ctl.toNat % 2 ^ 32 = 0x00011A7E →
      (s.dev.armTaken s.fuses = true → Gives s (.arm ctl) { s.dev with inj := { s.dev.inj with
        armed := some (s.dev.inj.target, s.dev.inj.locator, s.dev.inj.pattern), fired := false } })
      ∧ (s.dev.armTaken s.fuses = false → Gives s (.arm ctl) { s.dev with inj := { s.dev.inj with refused := min (s.dev.inj.refused + 1) 0xFFFF } }))
    ∧ (∀ ctl : DWord, ctl.toNat % 65536 ≠ 0x1A7E → Gives s (.arm ctl) s.dev)
    ∧ (s.dev.injAuth = 0 → s.dev.armTaken s.fuses = false)
    ∧ Gives s .disarm { s.dev with inj := { s.dev.inj with armed := none } }
    ∧ (∀ v : DWord, s.dev.live = true →
      (s.dev.faults.logConsumed ≤ v.toNat → v.toNat ≤ s.dev.faults.logProduced →
        Gives s (.fltLogConsumed v) { s.dev with faults := { s.dev.faults with logConsumed := v.toNat } })
      ∧ (v.toNat < s.dev.faults.logConsumed ∨ s.dev.faults.logProduced < v.toNat → Gives s (.fltLogConsumed v) s.dev)))

/-- CANARY, CONFIG_CODE, METER_CHECK, METER_INPUT_COMPARISON, VOLTAGE_MON, THERMAL_MON, LOCKSTEP and CLOCK_MON (17 R493,
R497-R499, R502): a check that holds changes nothing, one that fails reports its unit with the detail of R502; the meters'
comparison with the input marks the ledger only; three or more wrong bits of a configuration word are detected or not. -/
def Obligations.DetectorsCheck : Prop :=
  ∀ (s : State) (a b c : Nat), s.dev.inj.aim = none →
    (s.dev.stage < 4 → Gives s (.canary a b true) s.dev ∧ Reports s (.canary a b false) 8 a true (b % 65536))
    ∧ (Gives s (.lockstep a true) s.dev ∧ Reports s (.lockstep a false) 0x0A a true a)
    ∧ (Gives s (.clockMon a true) s.dev ∧ Reports s (.clockMon a false) 0x10 a true a)
    ∧ (apart b c ≤ 10 → Gives s (.thermalMon a b c) s.dev)
    ∧ (10 < apart b c → Reports s (.thermalMon a b c) 0x0D (2 * a) true (2 * a + min b 65535 * 2 ^ 16))
    ∧ (1000 * (2 * apart b c) ≤ 8 * (b + c) → apart b c ≤ 500 → Gives s (.meterCheck a b c) s.dev)
    ∧ (8 * (b + c) < 1000 * (2 * apart b c) ∨ 500 < apart b c →
        Reports s (.meterCheck a b c) 0x0B a true (a % 256 + min (apart b c * 2000 / max 1 (b + c)) 65535 * 2 ^ 16))
    ∧ (let out := fun (mv : Nat) => if a < 24 then mv < 500 ∨ 850 < mv else 5 * railNominal a < 100 * apart mv (railNominal a)
       let far := if a < 24 then 20 < apart b c else 2 * railNominal a < 100 * apart b c
       let runs := 24 ≤ a ∨ s.dev.stage < 4
       (¬ out b → ¬ out c → ¬ far → Gives s (.voltageMon a b c) s.dev)
       ∧ (runs ∧ out b ∨ ¬ out b ∧ ¬ out c ∧ far → Reports s (.voltageMon a b c) 0x0C (2 * a) true (2 * a + min b 65535 * 2 ^ 16))
       ∧ (runs → ¬ out b → out c → Reports s (.voltageMon a b c) 0x0C (2 * a + 1) true (2 * a + 1 + min c 65535 * 2 ^ 16)))
    ∧ Gives s (.meterInputComparison true) s.dev
    ∧ (s.dev.ledger.running = true → ∃ t, Next s (.meterInputComparison false) t ∧ t.dev.ledger = { s.dev.ledger with suspect := true }
        ∧ t.dev.parts = s.dev.parts ∧ sget 0 t.dev.faults.detected 0x0B = (sget 0 s.dev.faults.detected 0x0B + 1) % 2 ^ 32)
    ∧ (s.dev.live = true → ∀ err : BitVec 64,
        let detail := b % 2 ^ 32 * 2 ^ 16 + (Config.syndrome err.toNat).toNat * 2 ^ 48
        (err = 0 → Gives s (.configCode a b err) s.dev)
        ∧ (bitCount err = 1 → s.dev.detPowered 0x0F a = true → Reports s (.configCode a b err) 0x0F a false detail)
        ∧ (bitCount err = 2 → Reports s (.configCode a b err) 0x0F a true detail)
        ∧ (3 ≤ bitCount err →
          let s1 : State := { s with dev := { s.dev with fresh := s.dev.fresh + 1 } }
          (Config.manyBits s.dev.fresh = 0 → exec (.configCode a b err) s
            = exec (.faultReport { detector := 0x0F, unit := a, detected := true, detail := BitVec.ofNat 64 detail }) s1)
          ∧ (Config.manyBits s.dev.fresh ≠ 0 → exec (.configCode a b err) s = .next s1)))

/-- WARM_RESTART (12 R384-R386): a contained partition below sag stage 3 forms again: its cores are cleared, its caches
and spill area empty, its queues in ERROR with PARTITION_LOST, or FREE where they are bootstrap queues; a core that fails its
self-test leaves it DOWN with LOST_RESTART. -/
def Obligations.WarmRestarts : Prop :=
  ∀ (s : State) (p : Nat) (c : PartConf), s.dev.live = true → (s.dev.part p).state = .containing → s.dev.stage < 3 → p < 4 →
    s.dev.pconf p = some c → s.dev.host.waiting = [] →
    (∃ t, Next s (.warmRestart p true) t ∧ t.dev.part p = { s.dev.part p with state := .running } ∧ (∀ r, r ≠ p → t.dev.part r = s.dev.part r)
      ∧ (∀ k, s.dev.partOfStack (k / 256) = some p → (t.dev.core k).blocks = [] ∧ (t.dev.core k).l1 = {} ∧ (t.dev.core k).outs = [])
      ∧ (∀ n, t.dev.slice n = if s.dev.partOfSlice n = some p then {} else s.dev.slice n)
      ∧ (∀ q, s.dev.partOfQueue q = some p → s.dev.isBootQueue q = false → (s.dev.queue q).state ≠ .free →
          (t.dev.queue q).state = .error ∧ (t.dev.queue q).errStatus = 0x71 ∧ (t.dev.queue q).errIndex = (s.dev.queue q).retired
          ∧ (t.dev.queue q).producer = (s.dev.queue q).producer ∧ (t.dev.queue q).retired = (s.dev.queue q).retired)
      ∧ (∀ q, s.dev.partOfQueue q = some p → s.dev.isBootQueue q = true → q % 64 = 0 → 8192 * c.first ≤ q → q < 8192 * (c.first + c.lodes) →
          (t.dev.queue q).state = .free ∧ (t.dev.queue q).errStatus = 0x71)
      ∧ (∀ q, s.dev.partOfQueue q ≠ some p → t.dev.queue q = s.dev.queue q)
      ∧ ((∀ r, r < 4 → r ≠ p → (s.dev.part r).state = .absent ∨ (s.dev.part r).state = .running) → (∀ x ∈ s.dev.parts, x.1 < 4) →
          (s.dev.parts.map (fun x => x.1)).Nodup → t.dev.faults.faultN = false))
    ∧ (∃ t, Next s (.warmRestart p false) t ∧ (t.dev.part p).state = .down ∧ (t.dev.part p).cause = 0x99 ∧ t.dev.faults.faultN = true)

/-! ### The host port -/

/-- SIDEBAND_MESSAGE, LINK_RETRAIN, LINK_DOWN, HOT_RESET, FUNCTION_LEVEL_RESET (13 R391-R394, R397): bring-up goes through
the sideband, the link comes up on the modules that trained, a retrain counts, a fall of the link discards what the host has
waiting, a hot reset clears every function's configuration, a reset of physical function 0 its own only. -/
def Obligations.HostLink : Prop :=
  ∀ (s : State),
    (s.dev.portPowered = true →
      (s.dev.host.link = .reset ∨ s.dev.host.link = .down → Gives s (.sidebandMessage .initialise) { s.dev with host := { s.dev.host with link := .sideband } })
      ∧ (s.dev.host.link = .sideband → Gives s (.sidebandMessage .parameters) { s.dev with host := { s.dev.host with link := .ready } })
      ∧ (∀ modules rate, linkModules modules ≠ 0 → 1 ≤ rate → rate ≤ 3 →
        (s.dev.host.link = .ready → Gives s (.linkRetrain modules rate)
          { s.dev with host := { s.dev.host with link := .up, modules := linkModules modules, rate := rate } })
        ∧ (s.dev.host.link = .up → ∃ t, Next s (.linkRetrain modules rate) t ∧ t.dev.host = { s.dev.host with
            modules := linkModules modules, rate := rate, retrains := min (s.dev.host.retrains + 1) 0xFFFF } ∧ t.dev.slices = s.dev.slices)))
    ∧ (s.dev.host.link = .up →
      (∃ t, Next s .linkDown t ∧ t.dev.host = { s.dev.host with link := .down, modules := 0, rate := 0, waiting := [] } ∧ t.dev.mem = s.dev.mem
        ∧ t.dev.queues = s.dev.queues ∧ t.dev.parts = s.dev.parts)
      ∧ (∃ t, Next s .hotReset t ∧ t.dev.host = { s.dev.host with link := .down, modules := 0, rate := 0, waiting := [], cfg := [] } ∧ t.dev.mem = s.dev.mem
        ∧ t.dev.queues = s.dev.queues ∧ t.dev.parts = s.dev.parts)
      ∧ (∃ t, Next s (.functionLevelReset 0) t ∧ t.dev.fnCfg 0 = {} ∧ (∀ k, k ≠ 0 → t.dev.fnCfg k = s.dev.fnCfg k)
        ∧ t.dev.queues = s.dev.queues ∧ t.dev.parts = s.dev.parts ∧ t.dev.mem = s.dev.mem))
    ∧ (s.dev.host.link ≠ .up → Gives s .linkDown s.dev)
    ∧ (linkModules 15 = 15 ∧ linkModules 7 = 3 ∧ linkModules 12 = 12 ∧ linkModules 10 = 2)

/-- DMWR_POST, POSTED_WRITE_DROP and MBX_RX_ACK (13 R402, R403, 14 R426): a post takes a free place, a full mailbox refuses it
and counts; a plain write to a post register is counted and dropped; an acknowledge with the oldest message's sequence
removes it and fills the sender's slot, another is ignored. -/
def Obligations.Mailboxes : Prop :=
  ∀ (s : State) (mb : MailboxId) (space : RegSpace) (off : Nat),
    let n := mailNum mb
    let x := s.dev.mailbox n
    (postRegister space off = some mb → s.dev.barOpen (spaceFn space) = true →
      Gives s (.postedWriteDrop space off) { s.dev with host := { s.dev.host with dmwrDropped := (s.dev.host.dmwrDropped + 1) % 2 ^ 32 } }
      ∧ ∀ body : BitVec 128,
        (off % 16 = 0 → s.dev.postTaken mb = true → x.msgs.length < 16 → Gives s (.dmwrPost space off 16 body) { s.dev with
          mbox := sset {} s.dev.mbox n { x with msgs := x.msgs ++ [mailMsgOf body] }
          host := { s.dev.host with last := .success } })
        ∧ (off % 16 = 0 → s.dev.postTaken mb = false ∨ 16 ≤ x.msgs.length → Gives s (.dmwrPost space off 16 body) { s.dev with
          host := { s.dev.host with dmwrAborted := (s.dev.host.dmwrAborted + 1) % 2 ^ 32, last := .abort } })
        ∧ (∀ size, size ≠ 16 → Gives s (.dmwrPost space off size body) { s.dev with host := { s.dev.host with last := .unsupported } }))
    ∧ (∀ (i : Nat) (m : MailMsg) (rest : List MailMsg) (v : Word), (mb = .toManager i ∧ s.dev.barOpen 0 = true ∨ mb = .toTenant i ∧ s.dev.barOpen (i + 1) = true) →
      x.msgs = m :: rest →
      (v.toNat % 65536 = m.seq.toNat → ∃ t, Next s (.mbxRxAck mb v) t ∧ (t.dev.mailbox n).msgs = rest
        ∧ (t.dev.mailbox n).ack (m.seq.toNat % 16) = m.seq.toNat + (v.toNat / 65536) <<< 16 + 1 <<< 32
        ∧ (∀ k, k ≠ n → t.dev.mailbox k = s.dev.mailbox k))
      ∧ (v.toNat % 65536 ≠ m.seq.toNat → Gives s (.mbxRxAck mb v) s.dev))

/-- REGISTER_WRITE, HOST_CACHEID_WRITE and HDM_DECODER_COMMIT (00 R28, 13 R397, R399, R406, R407, 17 R506): a register
takes what the rules let it take; an access of another width, a read-only register and a closed BAR change nothing. -/
def Obligations.HostRegisters : Prop :=
  ∀ (s : State),
    (s.dev.barOpen 0 = true → ∀ v : DWord,
      Gives s (.registerWrite .pf0Bar0 0x50010 8 v) { s.dev with inj := { s.dev.inj with locator := v } }
      ∧ Gives s (.registerWrite .pf0Bar0 0x50018 8 v) { s.dev with inj := { s.dev.inj with pattern := v } }
      ∧ (∀ size, size ≠ 4 → size ≠ 8 → Gives s (.registerWrite .pf0Bar0 0x50018 size v) s.dev)
      ∧ Gives s (.registerWrite .pf0Bar0 0x20080 8 v) s.dev
      ∧ (let top := (List.range 4).foldl (fun n p => if (s.dev.pconf p).isSome then p else n) 0
         let w : Word := v.setWidth 32
         (w.toNat % 16 + top ≤ 15 → (∀ p, p < 4 → s.dev.agentOn p = false) →
          Gives s (.hostCacheidWrite w) { s.dev with host := { s.dev.host with cacheId := w.toNat % 16, cacheIdWritten := true } })
         ∧ (15 < w.toNat % 16 + top ∨ (∃ p, p < 4 ∧ s.dev.agentOn p = true) → Gives s (.hostCacheidWrite w) s.dev))
      ∧ (∀ n base size ways gran, n < 4 → (sget {} s.dev.host.decoders n).committed = false →
        ∃ t, Next s (.hdmDecoderCommit n base size ways gran) t ∧ t.dev.mem = s.dev.mem
          ∧ (∀ k, k ≠ n → sget {} t.dev.host.decoders k = sget {} s.dev.host.decoders k)
          ∧ ((sget {} t.dev.host.decoders n).committed = true ↔
              ∃ c, s.dev.pconf n = some c ∧ size = c.lodes * 384 * 2 ^ 30 ∧ ways = 1 ∧ s.dev.start.state = .ready)
          ∧ (sget {} t.dev.host.decoders n).error = !(sget {} t.dev.host.decoders n).committed))
    ∧ (s.dev.barOpen 0 = false → ∀ (off size : Nat) (v : DWord), Gives s (.registerWrite .pf0Bar0 off size v) s.dev)
    ∧ (s.dev.host.link = .up → ∀ v : DWord,
      ∃ t, Next s (.registerWrite .pf0Cfg 4 4 v) t ∧ t.dev.fnCfg 0 = { s.dev.fnCfg 0 with memEnable := v.getLsbD 1, busMaster := v.getLsbD 2 }
        ∧ (∀ k, k ≠ 0 → t.dev.fnCfg k = s.dev.fnCfg k) ∧ t.dev.queues = s.dev.queues ∧ t.dev.mem = s.dev.mem)
    ∧ (∀ (free p : Nat), p < 4 → s.dev.readReg s.fuses free .pf0Bar0 (0x20200 + 16 * p) 8 =
        (s.dev.part p).state.code + (s.dev.part p).cause <<< 16 + (s.dev.part p).losses <<< 32
        ∧ s.dev.readReg s.fuses free .pf0Bar0 (0x20208 + 16 * p) 8 = (s.dev.part p).lossTime)

/-! ### Instances -/

/-- The foreman's checks and answers (14 R427-R429): every command takes the oldest message of its tag; oasis mode and a
partition that does not run answer NOT_READY, a running command BUSY, a state that does not permit the command BAD_STATE;
S2_SET_ROOT sets the stage-2 root, S2_INVALIDATE drops the instance's translations (R418, R421).
Reset of an instance, by INST_RESET or by a function level reset of its virtual function (13 R397, 14 R430): it is
complete at once when the instance is quiet, and stays RESETTING while accesses of it are not performed. -/
def Obligations.ForemanAndReset : Prop :=
  (
  (∀ (s : State) (m : MailMsg) (d : Dev), ForemanMail s m d →
    (∀ cmd tag i rc, (tag, cmd) ∈ [(0x10, Instr.instReset), (0x11, .instFreeze), (0x12, .instSave), (0x13, .instRestore), (0x14, .instThaw),
        (0x20, .s2SetRoot), (0x21, .s2Invalidate)] → m.tag.toNat = tag → d.foremanCheck m = .inl (i, rc) →
      Gives s cmd (d.answerMail i m.seq rc) ∧ ∃ t, Next s cmd t ∧ (rc < 65536 → Acked t m rc))
    ∧ (∀ i sl p, d.foremanCheck m = .inr (i, sl, p) →
      (m.tag = 0x20 → ∃ t, Next s .s2SetRoot t
        ∧ ((m.addr = 0 ∨ m.addr.toNat % 4096 = 0 ∧ d.pf0Memory p m.addr.toNat = true) →
            t.dev.inst i = { s.dev.inst i with s2root := m.addr.toNat, lastRc := 0 } ∧ Acked t m 0)
        ∧ (m.addr ≠ 0 → m.addr.toNat % 4096 ≠ 0 ∨ d.pf0Memory p m.addr.toNat = false →
            t.dev.inst i = { s.dev.inst i with lastRc := 6 } ∧ Acked t m 6)
        ∧ (∀ k, k ≠ i → t.dev.inst k = s.dev.inst k) ∧ t.dev.xlate = s.dev.xlate)
      ∧ (m.tag = 0x21 → ∃ t, Next s .s2Invalidate t ∧ t.dev.xlate = s.dev.xlate.filter (fun e => e.fn != i) ∧ Acked t m 0
          ∧ t.dev.inst i = { s.dev.inst i with lastRc := 0 })))
  ∧ (∀ (d : Dev) (m : MailMsg), (d.start.state = .oasis → d.foremanCheck m = .inl (none, 5))
    ∧ (d.start.state ≠ .oasis → foremanTags.contains m.tag.toNat = false ∨ 256 ≤ m.len.toNat → d.foremanCheck m = .inl (none, 1))
    ∧ (∀ sl p, d.start.state ≠ .oasis → m.tag.toNat ∈ [0x11, 0x12, 0x13, 0x20] → m.len.toNat < 256 → d.slot m.len.toNat = some sl →
        d.partOfLode (m.len.toNat / 64) = some p →
        (d.partRuns p = false → d.foremanCheck m = .inl (some m.len.toNat, 5))
        ∧ (d.partRuns p = true → (d.inst m.len.toNat).cmd.isSome → d.foremanCheck m = .inl (some m.len.toNat, 4))
        ∧ (d.partRuns p = true → (d.inst m.len.toNat).cmd = none → permitted m.tag.toNat (d.inst m.len.toNat).state = false →
            d.foremanCheck m = .inl (some m.len.toNat, 3))
        ∧ (d.partRuns p = true → (d.inst m.len.toNat).cmd = none → permitted m.tag.toNat (d.inst m.len.toNat).state = true →
            d.foremanCheck m = .inr (m.len.toNat, sl, p)))))
  ∧ (
  ∀ (s : State) (i p : Nat) (sl : ImgSlot), s.dev.slices = [] → s.dev.tasks = [] → s.dev.seif.colls = [] → s.dev.stage < 3 →
    s.dev.slot i = some sl → s.dev.partOfLode (i / 64) = some p → s.dev.partRuns p = true → (s.dev.inst i).state = .running → (s.dev.inst i).cmd = none →
    (∀ m d, ForemanMail s m d → m.tag = 0x10 → d.foremanCheck m = .inr (i, sl, p) → i < 256 →
      (s.dev.fnQuiet i = true → ∃ t, Next s .instReset t ∧ WasReset s t i sl ∧ Acked t m 0 ∧ (t.dev.inst i).lastRc = 0)
      ∧ (s.dev.fnQuiet i = false → ∃ t, Next s .instReset t ∧ (t.dev.inst i).state = .resetting ∧ (t.dev.inst i).cmd.isSome
          ∧ (∀ a, Mem.read t.dev.mem a = Mem.read s.dev.mem a)))
    ∧ (s.dev.host.link = .up → s.dev.fnThere (i + 1) = true →
      (s.dev.fnQuiet i = true → ∃ t, Next s (.functionLevelReset (i + 1)) t ∧ WasReset s t i sl ∧ (t.dev.inst i).flr = false)
      ∧ (s.dev.fnQuiet i = false → ∃ t, Next s (.functionLevelReset (i + 1)) t ∧ (t.dev.inst i).state = .resetting ∧ (t.dev.inst i).flr = true)))

/-- INST_FREEZE, FREEZE_DRAIN_COMPLETE, INST_SAVE, INST_RESTORE and INST_THAW (14 R435-R438) of an instance with no line in
a cache: a freeze stops it and ends its halted blocks, and is complete once its tasks have drained; a save writes the
record and leaves it SAVED; a record that is none is refused; a thaw has it run.
A queue that INST_SAVE has written comes back from its record as it was (14 R436, R437): every field of its entry, and
the tasks of its bitmap; its function is the target's, its next descriptor the one after the retired index. -/
def Obligations.InstanceMoves : Prop :=
  (
  (∀ (s : State) (m : MailMsg) (d : Dev) (i p : Nat) (sl : ImgSlot), ForemanMail s m d → d.foremanCheck m = .inr (i, sl, p) → s.dev.slices = [] →
    s.dev.stage < 3 →
    (m.tag = 0x11 →
      (m.addr.toNat % 2048 ≠ 0 ∨ sl.sizeGib * 2 ^ 30 ≤ m.addr.toNat → Gives s .instFreeze (d.answerMail (some i) m.seq 6))
      ∧ (m.addr.toNat % 2048 = 0 → m.addr.toNat < sl.sizeGib * 2 ^ 30 →
        ((s.dev.inst i).state = .running → (∀ x ∈ s.dev.queues, s.dev.haltedBlocks x.1 = []) → ∃ t, Next s .instFreeze t
          ∧ t.dev.inst i = { s.dev.inst i with state := .freezing, cmd := some { tag := 0x11, seq := m.seq.toNat, addr := m.addr.toNat }, killedBlocks := 0 }
          ∧ t.dev.tasks = s.dev.tasks ∧ t.dev.queues = s.dev.queues ∧ t.dev.mem = s.dev.mem)
        ∧ ((s.dev.inst i).state = .frozen → ∃ t, Next s .instFreeze t ∧ Acked t m 0
          ∧ t.dev.inst i = { s.dev.inst i with lastRc := 0, recOff := m.addr.toNat, recCount := 0, fencesDropped := 0 })))
    ∧ (∀ d2 v, m.tag = 0x12 →
      let bs := (d.cmdBegin i m .saving).saveRecord p i sl
      m.addr.toNat % 4096 = 0 → d.pf0Range p true m.addr.toNat (0x1000 + 0x2000 * (d.blocksOf i).length) = true →
      (d.cmdBegin i m .saving).cpWriteFor p (pf0 p) none (bs.length / 128 + 2) m.addr.toNat bs.length (ofBytes bs) = (d2, .ok v) →
      Gives s .instSave ((d2.closeAccounts i false).cmdDone i 0 .saved))
    ∧ (∀ d2 v, m.tag = 0x13 → m.addr.toNat % 4096 = 0 → d.pf0Range p false m.addr.toNat 0x1000 = true →
      (∀ x ∈ s.dev.queues, s.dev.ofFn i x.1 = true → x.2.state = .free) → (d.cmdBegin i m .restoring).cpRead p (pf0 p) m.addr.toNat 0x1000 = (d2, .ok v) →
      (bytesAt v 0 4 ≠ 0x53495A53 ∨ bytesAt v 4 2 ≠ 1 ∨ bytesAt v 6 2 = 0 ∨ 128 < bytesAt v 6 2 →
        (d2.inst i).cmd.isSome → Gives s .instRestore (d2.cmdDone i 8 .frozen))
      ∧ (∀ d3 w c, bytesAt v 0 4 = 0x53495A53 → bytesAt v 4 2 = 1 → 1 ≤ bytesAt v 6 2 → bytesAt v 6 2 ≤ 128 →
        d2.cpRead p (pf0 p) m.addr.toNat (0x1000 + 0x2000 * bytesAt v 6 2) = (d3, .ok w) →
        let d4 := d3.restoreApply p i (bytesAt v 6 2) sl w
        (d4.inst i).cmd = some c → c.step = 1 → (d4.inst i).recCount = 0 →
        Gives s .instRestore ((d4.setInst i { d4.inst i with recCount := 0 }).cmdDone i 0 .frozen)))
    ∧ (m.tag = 0x14 → (s.dev.inst i).recCount = 0 → s.dev.tasks = [] → ∃ t, Next s .instThaw t ∧ (t.dev.inst i).state = .running ∧ (t.dev.inst i).cmd = none
        ∧ Acked t m 0 ∧ t.dev.mem = s.dev.mem))
  ∧ (∀ (s : State) (i p : Nat) (sl : ImgSlot) (c : InstCmd), s.dev.slices = [] → s.dev.slot i = some sl → s.dev.partOfLode (i / 64) = some p →
    s.dev.partRuns p = true → s.dev.stage < 3 → (s.dev.inst i).state = .freezing → (s.dev.inst i).cmd = some c →
    (s.dev.drained i = false → Gives s (.freezeDrainComplete i) s.dev)
    ∧ (s.dev.drained i = true → c.addr < sl.sizeGib * 2 ^ 30 → ∃ t, Next s (.freezeDrainComplete i) t ∧ t.dev.mem = s.dev.mem
      ∧ t.dev.inst i = { s.dev.inst i with state := .frozen, cmd := none, lastRc := 0, recOff := c.addr, recCount := 0, fencesDropped := 0 })))
  ∧ (
  ∀ (d : Dev) (p i q : Nat) (c : PartConf),
    let x := d.queue q
    d.pconf p = some c → x.state ≠ .free → d.bindingOk p x.binding = true → x.ringVa < 2 ^ 64 → x.log2 < 256 → x.prio < 4 → x.timeout < 2 ^ 32 →
    x.errStatus < 65536 → x.producer < 2 ^ 64 → x.retired < 2 ^ 64 → x.errIndex < 2 ^ 64 → x.squashed < 2 ^ 32 →
    ∃ y, d.restoreQueue p i (d.itemBytes q) c.first = some y ∧ y.fn = i
      ∧ { y with fn := x.fn, fetched := x.fetched, ended := x.ended, bootRing := x.bootRing, bootCfg := x.bootCfg } = x
      ∧ (∀ k, k < 256 → ((x.retired + k, true) ∈ y.ended ↔ ∃ b, (x.retired + k, b) ∈ x.ended))
      ∧ y.fetched = (if x.state = .active then x.retired else x.producer))

/-! ### Power -/

/-- CONTROL_PERIOD, CORE_CURRENT_LIMIT, INPUT_CURRENT_LIMIT, MONITOR_READING and BUDGET_SET (16 R471-R478): in a period every
core rail moves by 25 mV down or 10 mV up at most, within its bounds, no higher than 600 mV from sag stage 2 on, and no
higher than its ceiling or its thermal ceiling allow; a new budget counts from the next period, or once the stage clears. -/
def Obligations.PowerLoop : Prop :=
  ∀ (s : State), s.dev.live = true →
    (∀ meas, s.dev.stage < 4 → ∃ t, Next s (.controlPeriod meas) t
      ∧ { t.dev with power := s.dev.power, fresh := s.dev.fresh } = s.dev
      ∧ t.dev.power.inputW = meas.inputW ∧ t.dev.power.next = 0
      ∧ t.dev.power.budget = (if s.dev.power.next ≠ 0 then s.dev.power.next else s.dev.power.budget)
      ∧ ∀ x, x < 16 →
        let now := s.dev.power.set.getD x 0
        let next := t.dev.power.set.getD x 0
        (s.dev.railPart x = none → next = now)
        ∧ ((s.dev.railPart x).isSome → RailMoves now next (s.dev.coreCeiling x) ∧ (2 ≤ s.dev.stage → next ≤ max 600 (now - 25))
          ∧ next ≤ max (max 550 (t.dev.power.thermal.getD x 800)) (now - 25))
        ∧ ((∃ m ∈ railMonitors x, s.dev.conf.tj ≤ sget 0 s.dev.power.temps m) →
          t.dev.power.thermal.getD x 0 ≤ max 550 (s.dev.power.thermal.getD x 800 - 10)))
    ∧ (∀ rail mv, rail < 16 → 550 ≤ mv → mv < s.dev.power.set.getD rail 0 → Gives s (.coreCurrentLimit rail mv) { s.dev with
        power := { s.dev.power with set := s.dev.power.set.set rail mv, reason := s.dev.power.reason.set rail 2 } })
    ∧ Gives s (.inputCurrentLimit false) { s.dev with power := { s.dev.power with inputDrop := 0 } }
    ∧ (∃ t, Next s (.inputCurrentLimit true) t ∧ t.dev.power.inputDrop = min 250 (s.dev.power.inputDrop + 25)
      ∧ ∀ x, x < 16 → (s.dev.railPart x).isSome →
        t.dev.power.set.getD x 0 = min (s.dev.power.set.getD x 0) (max 550 (s.dev.coreCeiling x - t.dev.power.inputDrop)))
    ∧ (∀ m r, s.dev.monitorOn m = true → Gives s (.monitorReading m r) { s.dev with power := { s.dev.power with temps := sset 0 s.dev.power.temps m r } })
    ∧ (∀ v, s.dev.i3cUp = true → s.dev.mgmt.addr.isSome →
      (s.dev.conf.bmin ≤ v → v ≤ s.dev.conf.bmax →
        (s.dev.stage < 2 → Gives s (.budgetSet 1 v) (({ s.dev with power := { s.dev.power with next := v } } : Dev).reply (.done .success)))
        ∧ (2 ≤ s.dev.stage → Gives s (.budgetSet 1 v) (({ s.dev with power := { s.dev.power with stored := v } } : Dev).reply (.done .success))))
      ∧ (v < s.dev.conf.bmin ∨ s.dev.conf.bmax < v → Gives s (.budgetSet 1 v) (s.dev.reply (.done .invalidData))))

/-- INPUT_SAMPLE, STAGE_EXIT and PWR_OK_DEASSERT (16 R482-R484): ten samples in a row below a threshold enter its stage; stage 2 holds
every rail to 600 mV; stage 5 loses every partition and turns the rails off, and at the next sample everything but the
flash is off; a stage is left one at a time after 1,001 samples above its exit threshold. -/
def Obligations.SagStages : Prop :=
  ∀ (s : State), s.dev.mgmtOn = true →
    (∀ mv k, s.dev.power.armed = true → s.dev.stage + 1 = k → k ≤ 5 → s.dev.power.below.length = 5 →
      (∀ j, j < k → 9 ≤ s.dev.power.below.getD j 0 ∧ mv < sagEntry.getD j 0) → (∀ j, k ≤ j → j < 5 → sagEntry.getD j 0 ≤ mv ∨ s.dev.power.below.getD j 0 < 9) →
      ∃ t, Next s (.inputSample mv) t ∧ t.dev.stage = k ∧ t.dev.power.entries = (s.dev.power.entries + 1) % 2 ^ 32 ∧ t.dev.power.inputMv = mv
        ∧ (k < 5 → t.dev.parts = s.dev.parts ∧ t.dev.groups = s.dev.groups ∧ t.dev.power.rails = s.dev.power.rails ∧ (k ≠ 1 → t.dev.mem = s.dev.mem))
        ∧ (k = 2 → ∀ x, x < 16 → t.dev.power.set.getD x 0 = min (s.dev.power.set.getD x 0) 600)
        ∧ (k = 5 → AllDown t ∧ t.dev.faults.stopped = true ∧ t.dev.power.rails.core = false ∧ t.dev.power.rails.mem = false))
    ∧ (∀ mv, s.dev.power.armed = true → s.dev.stage = 0 → s.dev.power.below.length = 5 → 40000 ≤ mv → ∃ t, Next s (.inputSample mv) t ∧ t.dev.stage = 0
        ∧ t.dev.power.below = [0, 0, 0, 0, 0] ∧ { t.dev with power := s.dev.power } = s.dev)
    ∧ (∀ mv, 5 ≤ s.dev.stage → ∃ t, Next s (.inputSample mv) t ∧ t.dev.flash = s.dev.flash ∧ t.dev.mem = [] ∧ t.dev.parts = [] ∧ t.dev.power.rails.mgmt = false
        ∧ t.dev.sec = {} ∧ t.dev.power.pins = { s.dev.power.pins with thermtrip := false })
    ∧ (∀ k, s.dev.stage = k + 1 → k < 4 →
      (s.dev.power.above.getD k 0 < 1001 → Gives s .stageExit s.dev)
      ∧ (1001 ≤ s.dev.power.above.getD k 0 →
        (k ≠ 2 → ∃ t, Next s .stageExit t ∧ t.dev.stage = k ∧ t.dev.parts = s.dev.parts
          ∧ (k = 1 → t.dev.power.budget = (if s.dev.power.stored ≠ 0 then s.dev.power.stored else s.dev.power.budget)))
        ∧ (k = 2 → let d : Dev := { s.dev with stage := 2 }
          Gives s .stageExit (if s.dev.live then d.pumpAll.serveHeld else d))))
    ∧ (s.dev.power.pins.pwrOk = true → ∃ t, Next s .pwrOkDeassert t ∧ t.dev.power.pins.pwrOk = false
      ∧ (s.dev.power.armed = true → s.dev.stage < 5 → t.dev.stage = 5 ∧ AllDown t)
      ∧ (s.dev.power.armed = false → { t.dev with power := s.dev.power } = s.dev))

/-- FLOW_OK_N_DEASSERT, FLOW_OK_N_ASSERT, COOLANT_STOP and THERMAL_TRIP (16 R485-R488): a deassertion of less than 5 ms is
counted; one of 5 ms, and a reading of 115 °C or above, stop the module.
RESET_N_ASSERT, VIN_RISE and VIN_LOSS (16 R488, 18 R521, R530, 21 R574-R576, R581): a reset keeps the flash, the fuses, the
seal state and PWR_STOP and loses memory and partitions; a cold start is SEALED, or UNSEALED after a field return; a loss of
input power leaves the flash and the fuses. -/
def Obligations.StopsAndResets : Prop :=
  (
  ∀ (s : State), s.dev.mgmtOn = true →
    (s.dev.power.pins.flowOk = true → Gives s .flowOkNDeassert { s.dev with
      power := { s.dev.power with pins := { s.dev.power.pins with flowOk := false }, flowAt := s.dev.time, flowOver := false } })
    ∧ (s.dev.power.pins.flowOk = false → s.dev.start.state ≠ .starting → s.dev.power.pins.resetN = true → s.dev.power.flowOver = false →
      let up : PowerSt := { s.dev.power with pins := { s.dev.power.pins with flowOk := true } }
      (s.dev.time < s.dev.power.flowAt + 5000000 → Gives s .flowOkNAssert { s.dev with power := { up with glitches := (up.glitches + 1) % 2 ^ 32 } })
      ∧ (s.dev.power.flowAt + 5000000 ≤ s.dev.time → Gives s .flowOkNAssert { s.dev with power := up }))
    ∧ (s.dev.power.pins.resetN = true → s.dev.power.pins.flowOk = false → s.dev.power.flowOver = false →
      (s.dev.time < s.dev.power.flowAt + 5000000 → Gives s .coolantStop s.dev)
      ∧ (s.dev.power.flowAt + 5000000 ≤ s.dev.time → ∃ t, Next s .coolantStop t ∧ t.dev.power.stopCause = 1 ∧ t.dev.power.stopTime = s.dev.time
        ∧ (s.dev.live = true → AllDown t ∧ t.dev.faults.stopped = true ∧ t.dev.power.rails.core = false)))
    ∧ (∀ m tj, s.dev.monitorOn m = true →
      (tj < 115 → Gives s (.thermalTrip m tj) s.dev)
      ∧ (115 ≤ tj → ∃ t, Next s (.thermalTrip m tj) t ∧ t.dev.power.stopCause = 2 ∧ t.dev.power.tjTrip = min tj 255 ∧ t.dev.power.pins.thermtrip = true
        ∧ (s.dev.live = true → AllDown t ∧ t.dev.faults.stopped = true ∧ t.dev.power.rails.core = false))))
  ∧ (
  ∀ (s : State),
    (s.dev.mgmtOn = true → s.dev.stage < 5 → ∃ t, Next s .resetNAssert t ∧ t.dev.flash = s.dev.flash ∧ t.dev.mem = [] ∧ t.dev.parts = []
      ∧ t.dev.queues = [] ∧ t.dev.start = {} ∧ t.dev.conf = {} ∧ t.dev.power.pins = { s.dev.power.pins with resetN := false, thermtrip := false }
      ∧ t.dev.power.stopCause = s.dev.power.stopCause ∧ t.dev.power.stopTime = s.dev.power.stopTime
      ∧ t.dev.sec.keyLock = s.dev.sec.keyLock ∧ t.dev.sec.sealSt = (if s.dev.sec.sealSt = .unsealed then .unsealed else .sealed))
    ∧ (s.dev.power.pins.vin30 = false → ∃ t, Next s .vinRise t ∧ t.dev.flash = s.dev.flash ∧ t.dev.mem = [] ∧ t.dev.power.rails.mgmt = true
      ∧ t.dev.power.pins.vin30 = true ∧ t.dev.sec = { sealSt := if s.fuses.fieldReturn then .unsealed else .sealed } ∧ t.dev.power.stopCause = 0)
    ∧ (∃ t, Next s .vinLoss t ∧ t.dev.flash = s.dev.flash ∧ t.dev.mem = [] ∧ t.dev.parts = [] ∧ t.dev.power.rails.mgmt = false
      ∧ t.dev.power.pins.vin30 = false ∧ t.dev.sec = {}))

/-! ### Start -/

/-- START, PWR_OK_ASSERT, START_RETRY, HUB_START_CTL_START, PHASE_BOUND and CLEAR_RECORD (02 R70-R74, 21 R574, R576): which
commands begin a start and when; a phase past its bound fails the start with its reason; clearing the record ends the
count of failures.
What a start does (02 R66-R74): from an image that phase 2 accepts, with every test passed, the SZ3 becomes ready, with the
image's configuration, its partitions running, memory zero and a READY entry; an image that fails is refused with the
reason, and the third failure in a row is oasis mode; three failures on record keep a start in oasis mode. -/
def Obligations.Starts : Prop :=
  (
  ∀ (s : State) (env : StartEnv),
    (s.dev.power.pins.resetN = false → s.dev.mgmtOn = true → s.dev.stage < 5 →
      let d : Dev := { s.dev with
        time := 0
        power := { s.dev.power with pins := { s.dev.power.pins with resetN := true }, lowest := 0, entries := 0 }
        sec := { s.dev.sec with tap := { s.dev.sec.tap with extest := s.dev.sec.tap.extest && s.dev.sec.sealSt == .unsealed } } }
      (s.dev.power.pins.pwrOk = true → s.dev.start.state = .idle → BeginsStart s (.start env) env d)
      ∧ (s.dev.power.pins.pwrOk = false → Gives s (.start env) d))
    ∧ (s.dev.power.pins.pwrOk = false → s.dev.mgmtOn = true → s.dev.stage < 5 →
      let d : Dev := { s.dev with power := { s.dev.power with pins := { s.dev.power.pins with pwrOk := true }, armed := true } }
      (s.dev.power.pins.resetN = true → s.dev.start.state = .idle → BeginsStart s (.pwrOkAssert env) env d)
      ∧ (s.dev.power.pins.resetN = false → Gives s (.pwrOkAssert env) d))
    ∧ (s.dev.mgmtOn = true → s.dev.start.state = .retryWait → BeginsStart s (.startRetry env) env s.dev)
    ∧ (s.dev.start.state ≠ .retryWait → Gives s (.startRetry env) s.dev)
    ∧ (s.dev.barOpen 0 = true → ∀ key : Word,
      (key.toNat % 65536 = 0xC1EA →
        (s.dev.mgmtOn = true → s.dev.start.state = .oasis → s.dev.failures = 0 → s.dev.stage < 5 → BeginsStart s (.hubStartCtlStart key env) env s.dev)
        ∧ (s.dev.start.state ≠ .oasis ∨ s.dev.failures ≠ 0 → Gives s (.hubStartCtlStart key env) s.dev)
        ∧ ∃ t e, Next s (.clearRecord key) t ∧ t.dev.flash.record = [e] ∧ e.outcome = .cleared ∧ e.consecFail = 0 ∧ e.startCount = s.dev.startsSoFar
          ∧ t.dev.failures = 0 ∧ { t.dev with flash := s.dev.flash } = s.dev ∧ t.dev.flash.image = s.dev.flash.image)
      ∧ (key.toNat % 65536 ≠ 0xC1EA → Gives s (.clearRecord key) s.dev ∧ Gives s (.hubStartCtlStart key env) s.dev))
    ∧ (s.dev.start.state = .starting → ∃ t, Next s .phaseBound t ∧ t.dev.start.reason = s.dev.start.phase * 256 + 0xFF ∧ t.dev.faults.faultN = true
      ∧ t.dev.start.state = (if 3 ≤ s.dev.start.consec then .oasis else .retryWait) ∧ t.dev.parts = [] ∧ t.dev.mem = [])
    ∧ (s.dev.start.state ≠ .starting → Gives s .phaseBound s.dev))
  ∧ (
  ∀ (d : Dev) (u : Fuses) (im : Image), d.power.pins.flowOk = true → d.flash.image = some im → d.flash.record.length < 1022 →
    let fails := d.failures
    let e := d.beginStart u {}
    (fails < 3 →
      (phase2Reason u im = 0 → (u.keyTagOk = true ∨ u.fieldReturn = true ∨ d.sec.keyLock = true) →
        e.start.state = .ready ∧ e.conf = sealImage im ∧ e.mem = [] ∧ e.faults.faultN = false ∧ e.ledger.running = true ∧ e.failures = 0
        ∧ (e.record.map (fun x => (x.outcome, x.startCount))) = some (.ready, (d.startsSoFar + 1) % 2 ^ 32)
        ∧ (∀ p, p < 4 → (e.part p).state = if (e.pconf p).isSome then .running else .absent) ∧ e.groups = [] ∧ e.queues = [])
      ∧ (phase2Reason u im ≠ 0 → e.start.reason = phase2Reason u im ∧ e.failures = fails + 1 ∧ e.faults.faultN = true ∧ e.parts = []
        ∧ e.start.state = (if fails = 2 then .oasis else .retryWait)
        ∧ (e.record.map (fun x => (x.outcome, x.reason))) = some (if fails = 2 then .oasis else .failed, phase2Reason u im)))
    ∧ (3 ≤ fails → (d.record.map (fun x => x.outcome)) = some .failed ∨ (d.record.map (fun x => x.outcome)) = some .oasis →
      e.start.state = .oasis ∧ e.flash = d.flash ∧ e.parts = []))

/-! ### The energy ledger -/

/-- METER_TICK, PAGE_WRITE and LDG_CONSUMED (19 R533, R539-R554): a tick books whole microjoules and keeps the rest; a page
that has run its interval closes; the oldest waiting page is written to its slot in the window and LDG_PRODUCED rises, while
a slot is free; LDG_CONSUMED neither falls nor passes it.
The division of energy (19 R542): what the items get adds up to all of it, each gets the share of its weight rounded
down or one more, and equal weights get shares at most 1 apart. -/
def Obligations.LedgerPages : Prop :=
  (
  ∀ (s : State), s.dev.tasks = [] →
    (∀ nj ds, s.dev.ledger.running = true →
      let g := s.dev.ledger
      let e := (g.residue + nj) / 1000
      ∃ t, Next s (.meterTick nj ds) t ∧ t.dev.ledger.residue = (g.residue + nj) % 1000 ∧ t.dev.ledger.energy = (g.energy + e) % 2 ^ 64 ∧ t.dev.counts = []
        ∧ t.dev.mem = s.dev.mem
        ∧ (g.waiting ≠ [] ∨ g.page.ticks + 1 < s.dev.conf.ledgerInterval * 10 ∧ g.page.tickets.length < 65536 →
          t.dev.ledger.waiting = g.waiting ∧ t.dev.ledger.page.energy = g.page.energy + e ∧ t.dev.ledger.page.ticks = g.page.ticks + 1
          ∧ t.dev.ledger.page.tickets.map (fun k => (k.fn, k.num, k.opened)) = g.page.tickets.map (fun k => (k.fn, k.num, k.opened)))
        ∧ (g.waiting = [] → s.dev.conf.ledgerInterval * 10 ≤ g.page.ticks + 1 →
          t.dev.ledger.waiting.map (fun p => (p.energy, p.ticks)) = [(g.page.energy + e, g.page.ticks + 1)] ∧ t.dev.ledger.page.ticks = 0
          ∧ t.dev.ledger.page.energy = 0))
    ∧ (∀ pg rest, s.dev.ledger.waiting = pg :: rest → s.dev.ledger.running = true → s.dev.stage < 4 → s.dev.live = true →
      (s.dev.ledger.consumed + s.dev.pageSlots ≤ s.dev.ledger.produced → Gives s .pageWrite s.dev)
      ∧ (s.dev.ledger.produced < s.dev.ledger.consumed + s.dev.pageSlots → pg.tickets.length ≤ 65536 →
        let addr := s.dev.conf.ledger.base + s.dev.ledger.produced % s.dev.pageSlots * 0x402000
        ∃ t, Next s .pageWrite t ∧ t.dev.ledger.produced = s.dev.ledger.produced + 1 ∧ t.dev.ledger.waiting = rest
          ∧ Mem.readNat t.dev.mem addr 4 = 0x474C5A53 ∧ Mem.readNat t.dev.mem (addr + 8) 8 = s.dev.ledger.produced % 2 ^ 64
          ∧ Mem.readNat t.dev.mem (addr + 16) 8 = s.fuses.serial.toNat
          ∧ (∀ a, a < addr ∨ addr + 0x402000 ≤ a → Mem.read t.dev.mem a = Mem.read s.dev.mem a)))
    ∧ (s.dev.ledger.waiting = [] → Gives s .pageWrite s.dev)
    ∧ (∀ v : DWord, s.dev.barOpen 0 = true → s.dev.live = true → s.dev.mgmtOn = true →
      (s.dev.ledger.consumed ≤ v.toNat → v.toNat ≤ s.dev.ledger.produced → Gives s (.ldgConsumed v) { s.dev with ledger := { s.dev.ledger with consumed := v.toNat } })
      ∧ (v.toNat < s.dev.ledger.consumed ∨ s.dev.ledger.produced < v.toNat → Gives s (.ldgConsumed v) s.dev)))
  ∧ (
  ∀ (e : Nat) (items : List (Nat × Nat)), (items.map (fun x => x.1)).Nodup → 0 < (items.map (fun x => x.2)).sum →
    let w := (items.map (fun x => x.2)).sum
    ((divide e items).map (fun x => x.2)).sum = e
    ∧ (divide e items).map (fun x => x.1) = items.map (fun x => x.1)
    ∧ (∀ (k : Nat) (x y : Nat × Nat), items[k]? = some x → (divide e items)[k]? = some y → e * x.2 / w ≤ y.2 ∧ y.2 ≤ e * x.2 / w + 1 ∧ (e * x.2 % w = 0 → y.2 = e * x.2 / w)))

/-! ### Time -/

/-- TIME_TICK and PPS_IN (01 R52, 08 R280, 11 R365, 20 R561): with nothing in progress a tick adds 1 µs to device time, to the coherence
clock below sag stage 4, and to the time of every task that counts, and changes no memory and no register; a PPS edge is
taken when the image selects the input. The length of a tick is the model's choice (log entry 4). -/
def Obligations.TimePasses : Prop :=
  ∀ (s : State), 
    (s.dev.mgmtOn = true → s.dev.power.pins.resetN = true → s.dev.pps.err = 0 → s.dev.sec.run = none → s.dev.host.waiting = [] →
      (∀ x ∈ s.dev.insts, x.2.cmd = none ∧ x.2.state ≠ .resetting) →
      ∃ t, Next s .timeTick t ∧ t.dev.time = (s.dev.time + 1000) % 2 ^ 64 ∧ t.dev.coh = (if s.dev.stage ≥ 4 then s.dev.coh else s.dev.coh + 1000)
        ∧ t.dev.tasks = s.dev.tasks.map (fun k => if s.dev.counts? k then { k with count := k.count + 1 } else k)
        ∧ t.dev.mem = s.dev.mem ∧ t.dev.groups = s.dev.groups ∧ t.dev.queues = s.dev.queues ∧ t.dev.parts = s.dev.parts ∧ t.dev.net = s.dev.net)
    ∧ ((s.dev.mgmtOn = false ∨ s.dev.power.pins.resetN = false) → Gives s .timeTick s.dev)
    ∧ (s.dev.live = true →
      (s.dev.conf.pps = false → Gives s .ppsIn s.dev)
      ∧ (s.dev.conf.pps = true → s.dev.pps.first = none → Gives s .ppsIn { s.dev with pps := { first := some s.dev.time, last := s.dev.time } })
      ∧ (∀ f, s.dev.conf.pps = true → s.dev.pps.first = some f → f ≤ s.dev.time → ∃ t, Next s .ppsIn t ∧ t.dev.pps.last = s.dev.time
          ∧ (((s.dev.time - f : Int) + t.dev.pps.err) % 1000000000 = 0) ∧ -500000000 ≤ t.dev.pps.err ∧ t.dev.pps.err ≤ 500000000))

/-! ### The seal, tokens and fuses -/

/-- GET_NONCE, NONCE_EXPIRY, ROLLBACK_COMMIT and OWNER_PROVISION (18 R516, R517, R523-R526): a nonce lasts 10 s; the
anti-rollback count rises to a value between its own and the running version; an owner is provisioned once; a message of
the wrong length, in the wrong state or out of range changes no fuse. -/
def Obligations.SecureCommands : Prop :=
  (∀ (s : State) (m : MailMsg) (d : Dev) (ok : Bool), SecureMail s 1 m d →
    Secured s (.getNonce ok) { d with fresh := d.fresh + 1, sec := { d.sec with nonce := some (Config.nonce d.fresh, d.time) } } m
      (if ok && d.assayerHost then 0 else 0x109) s.fuses)
  ∧ (∀ (s : State) (n : BitVec 256) (at' : Nat), s.dev.mgmtOn = true → s.dev.sec.nonce = some (n, at') →
    (s.dev.time < at' + 10000000000 → Gives s .nonceExpiry s.dev)
    ∧ (at' + 10000000000 ≤ s.dev.time → Gives s .nonceExpiry { s.dev with sec := { s.dev.sec with nonce := none } }))
  ∧ (∀ (s : State) (m : MailMsg) (d : Dev) (ok : Bool), SecureMail s 4 m d →
    let v := m.len.toNat
    (s.dev.isSealed = true → s.dev.start.state = .ready →
      (s.fuses.counter ≤ v → v ≤ s.dev.start.version → v ≤ 128 → (ok = true ∨ v = s.fuses.counter) → Secured s (.rollbackCommit ok) d m 0 { s.fuses with counter := v })
      ∧ (v < s.fuses.counter ∨ s.dev.start.version < v ∨ 128 < v → Secured s (.rollbackCommit ok) d m 0x107 s.fuses)
      ∧ (s.fuses.counter < v → v ≤ s.dev.start.version → v ≤ 128 → ∃ k, s.fuses.counter ≤ k ∧ k < v ∧
          Secured s (.rollbackCommit false) { d with fresh := d.fresh + 1 } m 0x106 { s.fuses with counter := k }))
    ∧ (s.dev.isSealed = false ∨ s.dev.start.state ≠ .ready → Secured s (.rollbackCommit ok) d m 0x105 s.fuses))
  ∧ (∀ (s : State) (m : MailMsg) (d : Dev) (modulus : Nat), SecureMail s 5 m d →
    (s.dev.isSealed = true → s.fuses.ownerDigest = none → d.assayerHost = true →
      Secured s (.ownerProvision modulus true true) d m 0 { s.fuses with ownerDigest := some (sha512 (toBytes modulus 512)) })
    ∧ (s.dev.isSealed = false ∨ s.fuses.ownerDigest.isSome → ∀ r f, Secured s (.ownerProvision modulus r f) d m 0x105 s.fuses)
    ∧ (s.dev.isSealed = true → s.fuses.ownerDigest = none → ∀ f, Secured s (.ownerProvision modulus false f) d m 0x109 s.fuses))
  ∧ (∀ (s : State) (m : MailMsg) (rest : List MailMsg) (tag n : Nat) (cmd : Instr), s.dev.mgmtOn = true → (s.dev.mailbox mbSecure).msgs = m :: rest →
    m.tag.toNat = tag → secureLength tag = some n → m.len.toNat ≠ n →
    (tag = 1 ∧ cmd = .getNonce true ∨ (∃ tok, tag = 2 ∧ cmd = .unseal tok true ∨ tag = 3 ∧ cmd = .testAuth tok true
      ∨ tag = 6 ∧ s.dev.sec.run = none ∧ cmd = .fieldReturn tok true true ∨ tag = 7 ∧ cmd = .revokeKey tok true true) ∨ ∃ x, tag = 5 ∧ cmd = .ownerProvision x true true) →
    Secured s cmd (s.dev.setMailbox mbSecure { s.dev.mailbox mbSecure with msgs := rest }) m 0x101 s.fuses)

/-- TEST_AUTH, UNSEAL, REVOKE_KEY and FIELD_RETURN (18 R514, R524-R530): a token that passes authorises one command and ends
the nonce; one that fails is refused by its code, changes no fuse and ends the nonce too.
An unseal in progress goes on at each TIME_TICK (18 R528; the pace is the model's choice, log entry 5): partitions are
lost, the key and the nonce go, then memory but for the event log and the ledger window reads 0, and only then is the
part UNSEALED. -/
def Obligations.TokensAndUnseal : Prop :=
  (
  ∀ (s : State) (m : MailMsg) (d : Dev) (tok : Token) (cmd : Instr) (tag purpose : Nat), SecureMail s tag m d → d.assayerHost = true → s.dev.sec.run = none →
    (tag = 3 ∧ purpose = 2 ∧ cmd = .testAuth tok true ∨ tag = 2 ∧ purpose = 1 ∧ cmd = .unseal tok true ∨ tag = 7 ∧ purpose = 4 ∧ cmd = .revokeKey tok true true
      ∨ tag = 6 ∧ purpose = 3 ∧ cmd = .fieldReturn tok true true) →
    let rc := tokenStatus s.fuses s.dev.sec.nonce purpose tok
    let e : Dev := { d with sec := { d.sec with nonce := none } }
    let allowed := tag = 6 ∨ s.dev.isSealed = true ∧ (tag = 3 → s.dev.start.state = .ready)
    (¬ allowed → Secured s cmd d m 0x105 s.fuses)
    ∧ (allowed → rc ≠ 0 → Secured s cmd e m rc s.fuses)
    ∧ (allowed → rc = 0 →
      (tag = 3 → Secured s cmd { e with inj := { e.inj with testAuth := true } } m 0 s.fuses)
      ∧ (tag = 2 → Gives s cmd { e with
          sec := { e.sec with sealSt := .pending, keyLock := true, run := some { step := 1, seq := m.seq.toNat } }
          inj := { e.inj with armed := none } })
      ∧ (tag = 7 →
        let left := (List.range 4).filter (fun k => !s.fuses.revoked.contains k && k != tok.arg)
        (left = [] → Secured s cmd e m 0x105 s.fuses)
        ∧ (left ≠ [] → s.fuses.revoked.contains tok.arg = true → Secured s cmd e m 0 s.fuses)
        ∧ (left ≠ [] → s.fuses.revoked.contains tok.arg = false → Secured s cmd e m 0 { s.fuses with revoked := s.fuses.revoked ++ [tok.arg] }))
      ∧ (tag = 6 →
        (s.dev.sec.sealSt = .unsealed → Secured s cmd { e with
            sec := { e.sec with sealSt := .unsealed, run := none, keyLock := true }
            start := { e.start with keyReady := false } } m 0 { s.fuses with keyTagOk := false, fieldReturn := true })
        ∧ (s.dev.sec.sealSt ≠ .unsealed → Gives s cmd { e with
            sec := { e.sec with sealSt := .pending, keyLock := true, run := some { step := 1, seq := m.seq.toNat, fuses := some true } }
            inj := { e.inj with armed := none } }))))
  ∧ (
  ∀ (u : Fuses) (d : Dev) (r : UnsealRun), d.sec.run = some r →
    let e := (unsealStep u d).1
    (r.step = 2 → (∀ p, p < 4 → (e.part p).state = .absent ∨ (e.part p).state = .down) ∧ e.sec.sealSt = d.sec.sealSt ∧ e.sec.run = some { r with step := 3 })
    ∧ (r.step = 3 → e.start.keyReady = false ∧ e.sec.nonce = none ∧ e.sec.run = some { r with step := 4 } ∧ e.mem = d.mem)
    ∧ (r.step = 4 → e.sec.run = some { r with step := 5 } ∧ e.sec.sealSt = d.sec.sealSt ∧ e.groups = [] ∧ e.slices = []
      ∧ (∀ a, areaHas d.conf.eventLog a = false → areaHas d.conf.ledger a = false → Mem.read e.mem a = 0)
      ∧ (∀ a, (areaHas d.conf.eventLog a = true ∨ areaHas d.conf.ledger a = true) → Mem.read e.mem a = Mem.read d.mem a))
    ∧ (5 ≤ r.step → r.fuses = none → e.sec.sealSt = .unsealed ∧ e.sec.run = none ∧ (unsealStep u d).2 = u)
    ∧ (r.step < 5 → (unsealStep u d).2 = u))

/-- EXTEST, SAMPLE_PRELOAD, IDCODE, DAP and BYPASS (18 R522): IDCODE always reads; the boundary scan works while UNSEALED or in
reset, and else acts as BYPASS; DAP works UNSEALED only, when a write to device memory reads back and the scan shifts out
the access before. -/
def Obligations.TestPort : Prop :=
  ∀ (s : State), s.dev.mgmtOn = true →
    let tap := s.dev.sec.tap
    let bypass := s.dev.setTap { tap with ir := 0xFF, out := 0, extest := false }
    Gives s .bypass bypass ∧ Gives s .idcode (s.dev.setTap { tap with ir := 0x02, out := 0x15A33E71, extest := false })
    ∧ (∀ lands, (s.dev.sec.sealSt = .unsealed ∨ s.dev.power.pins.resetN = false →
          Gives s (.extest lands) (s.dev.setTap { tap with ir := 0x00, boundary := lands, extest := true })
          ∧ ∃ t, Next s .samplePreload t ∧ t.dev.sec.tap.ir = 0x01 ∧ t.dev.sec.tap.extest = false ∧ t.dev.mem = s.dev.mem)
        ∧ (s.dev.sec.sealSt ≠ .unsealed → s.dev.power.pins.resetN = true → Gives s (.extest lands) bypass ∧ Gives s .samplePreload bypass))
    ∧ (∀ dr : BitVec 128,
      (s.dev.sec.sealSt ≠ .unsealed → Gives s (.dap dr) bypass)
      ∧ (s.dev.sec.sealSt = .unsealed → dr.getLsbD 52 = true → dr.getLsbD 53 = false → s.dev.memAnswers (dr.toNat % 2 ^ 52) = true →
        ∃ t, Next s (.dap dr) t ∧ t.dev.sec.tap.out = tap.dr ∧ t.dev.sec.tap.ir = 0x10
          ∧ t.dev.dapRead (dr.toNat % 2 ^ 52) = dr.extractLsb' 64 64
          ∧ (∀ a, a < dr.toNat % 2 ^ 52 ∨ dr.toNat % 2 ^ 52 + 8 ≤ a → t.dev.dapByte a = s.dev.dapByte a))
      ∧ (s.dev.sec.sealSt = .unsealed → dr.getLsbD 52 = false → dr.getLsbD 53 = false → s.dev.memAnswers (dr.toNat % 2 ^ 52) = true →
        ∃ t, Next s (.dap dr) t ∧ t.dev.sec.tap.out = tap.dr ∧ t.dev.sec.tap.dr = s.dev.dapRead (dr.toNat % 2 ^ 52) ++ dr.extractLsb' 0 64 ∧ t.dev.mem = s.dev.mem))

/-! ### Management -/

/-- ENTDAA, PRIVATE_READ, MCTP control and PLDM base, platform monitoring (20 R556-R559): a target with its dynamic address
answers each request with what the rules give, and a private read returns the oldest answer; without an address, or in
reset, no request changes anything.
Attestation (18 R518-R520): version, capabilities, algorithms, the digest and the certificate chain of slot 0 are
answered in every state; a challenge and signed measurements need the identity key. -/
def Obligations.ManagementAnswers : Prop :=
  (
  ∀ (s : State),
    (s.dev.i3cUp = true → s.dev.mgmt.addr = none → ∀ a, Gives s (.entdaa a) { s.dev with mgmt := { s.dev.mgmt with addr := some a } })
    ∧ (s.dev.i3cUp = true → s.dev.mgmt.addr.isSome →
      (∀ cr ∈ [(Instr.getEndpointId, Reply.eid s.dev.mgmt.eid), (.getEndpointUuid, .uuid Config.uuid), (.getMessageTypeSupport, .types [0, 1, 5]),
          (.getMctpVersionSupport 5, .versions 5 (Config.mctpVersions 5)), (.getMctpVersionSupport 3, .done .unsupported), (.gettid, .tid Config.tid),
          (.getpldmversion 2, .versions 2 (Config.pldmVersions 2)), (.getpldmversion 3, .done .invalidData), (.getpldmtypes, .types [0, 2, 5]),
          (.getpldmcommands 7, .done .invalidData), (.getpdrrepositoryinfo, .pdrInfo s.dev.pdrs.length),
          (.getsensorreading 1, .reading .enabled (s.dev.power.inputMv % 65536)), (.getsensorreading 0x40, .done .invalidData),
          (.getstatesensorreadings 0x109, .reading .enabled s.dev.stage),
          (.getsensorreading 0x30, if s.dev.live then .reading .enabled (s.dev.ledger.energy / 1000000 % 2 ^ 32) else .reading .unavailable 0),
          (.getnumericeffectervalue 1, if s.dev.live then .effecter .enabled s.dev.power.pending s.dev.power.budget else .effecter .unavailable 0 0),
          (.getnumericeffectervalue 2, .done .invalidData)], Gives s cr.1 (s.dev.reply cr.2))
      ∧ (∀ t, t ∈ [0, 2, 5] → ∃ l, Gives s (.getpldmcommands t) (s.dev.reply (.commands t l)))
      ∧ (∀ h kind id, s.dev.pdrs[h]? = some (kind, id) →
          Gives s (.getpdr (h + 1)) (s.dev.reply (.pdr (h + 1) kind id (if h + 1 < s.dev.pdrs.length then h + 2 else 0))))
      ∧ (∀ eid, (1 ≤ eid → eid < 0xFF → Gives s (.setEndpointId eid) (({ s.dev with mgmt := { s.dev.mgmt with eid := eid } } : Dev).reply (.eid eid)))
          ∧ (eid = 0 ∨ 0xFF ≤ eid → Gives s (.setEndpointId eid) (s.dev.reply (.done .invalidData))))
      ∧ (∀ r rest, s.dev.mgmt.out = r :: rest → Gives s .privateRead { s.dev with mgmt := { s.dev.mgmt with out := rest, last := some r } })
      ∧ (s.dev.mgmt.out = [] → Gives s .privateRead { s.dev with mgmt := { s.dev.mgmt with last := none } }))
    ∧ (s.dev.i3cUp = false ∨ s.dev.mgmt.addr = none → Gives s .getEndpointId s.dev ∧ Gives s .privateRead s.dev ∧ Gives s .gettid s.dev ∧ ∀ v, Gives s (.budgetSet 1 v) s.dev))
  ∧ (
  ∀ (s : State) (n : BitVec 256), s.dev.i3cUp = true → s.dev.mgmt.addr.isSome →
    let all := (List.range 9).map (fun k => (k + 1, s.dev.sec.meas.m.getD k 0))
    let e : Dev := { s.dev with fresh := s.dev.fresh + 1 }
    let sig := (Config.signature s.dev.fresh).toNat
    Gives s .getVersion (s.dev.reply (.spdmVersion 1 3)) ∧ Gives s .getCapabilities (s.dev.reply (.capabilities true true true false))
    ∧ Gives s (.negotiateAlgorithms 3) (s.dev.reply (.algorithms 1 1)) ∧ Gives s .getDigests (s.dev.reply (.digests 1 chainDigest))
    ∧ (∀ off len, off < Config.certChain.length → Gives s (.getCertificate 0 off len) (s.dev.reply
        (.certificate 0 off ((Config.certChain.drop off).take len) (Config.certChain.length - off - len))))
    ∧ (∀ slot off len, slot ≠ 0 ∨ Config.certChain.length ≤ off → Gives s (.getCertificate slot off len) (s.dev.reply (.spdmError .invalidRequest)))
    ∧ (s.dev.keyAvail = true → Gives s (.challenge 0 n) (e.reply (.challengeAuth 0 chainDigest 0 sig))
        ∧ Gives s (.getMeasurements 0xFF n true) (e.reply (.measurements all 9 (some sig))))
    ∧ (s.dev.keyAvail = false → Gives s (.challenge 0 n) (s.dev.reply (.spdmError .unspecified))
        ∧ ∀ op, Gives s (.getMeasurements op n true) (s.dev.reply (.spdmError .unspecified)))
    ∧ Gives s (.getMeasurements 0xFF n false) (s.dev.reply (.measurements all 9 none))
    ∧ (∀ op, 1 ≤ op → op ≤ 9 → Gives s (.getMeasurements op n false) (s.dev.reply (.measurements [(op, s.dev.sec.meas.m.getD (op - 1) 0)] 9 none))))

/-- Firmware update (20 R560, 02 R74): RequestUpdate, PassComponentTable and UpdateComponent in their order, the pieces asked for one
after another, and with the last the image in the flash, with an IMAGE_WRITTEN entry when it verifies; ActivateFirmware
begins a start in oasis mode only. -/
def Obligations.FirmwareUpdate : Prop :=
  ∀ (s : State), s.dev.i3cUp = true → s.dev.mgmt.addr.isSome →
    let up := s.dev.mgmt.update
    (up = .idle → Gives s .requestupdate ((s.dev.setUpdate .learn).reply (.done .success)))
    ∧ (up ≠ .idle → Gives s .requestupdate (s.dev.reply (.done .alreadyInUpdateMode)))
    ∧ (∀ size stamp, up = .learn →
      (size ≤ 0x07FF0000 → Gives s (.passcomponenttable 0x5A33 size stamp) ((s.dev.setUpdate .ready).reply (.done .success)))
      ∧ (0x07FF0000 < size → Gives s (.passcomponenttable 0x5A33 size stamp) (s.dev.reply (.done .cannotUpdate))))
    ∧ (∀ size, up = .ready → 1 ≤ size → size ≤ 0x07FF0000 → ∃ t, Next s (.updatecomponent size) t ∧ t.dev.flash = { s.dev.flash with image := none }
        ∧ t.dev.mgmt.update = .download size 0 ∧ t.dev.mgmt.out = s.dev.mgmt.out ++ [.done .success, .wantData 0 (min 1024 size)])
    ∧ (up = .idle → Gives s (.updatecomponent 1) (s.dev.reply (.done .notInUpdateMode)))
    ∧ (∀ size got im, up = .download size got → got < size →
      (1024 < size - got → ∃ t, Next s (.requestfirmwaredata got 1024 im false) t ∧ t.dev.mgmt.update = .download size (got + 1024)
        ∧ t.dev.mgmt.out = s.dev.mgmt.out ++ [.wantData (got + 1024) (min 1024 (size - (got + 1024)))] ∧ t.dev.flash = s.dev.flash)
      ∧ (size - got ≤ 1024 → ∃ t, Next s (.requestfirmwaredata got (size - got) im true) t ∧ t.dev.mgmt.update = .idle ∧ t.dev.flash.image = some im
        ∧ (imageReason s.fuses im = 0 → (t.dev.record.map (fun e => (e.outcome, e.consecFail, e.imageId))) = some (.imageWritten, 0, im.header.imageId)
            ∧ t.dev.failures = 0 ∧ t.dev.mgmt.out = s.dev.mgmt.out ++ [.transferComplete true, .verifyComplete true, .applyComplete])
        ∧ (imageReason s.fuses im ≠ 0 → t.dev.flash.record = s.dev.flash.record
            ∧ t.dev.mgmt.out = s.dev.mgmt.out ++ [.transferComplete true, .verifyComplete false]))
      ∧ (∀ off n last, off ≠ got → Gives s (.requestfirmwaredata off n im last) s.dev))
    ∧ (∀ env, (s.dev.start.state ≠ .oasis → Gives s (.activatefirmware env) (s.dev.reply (.done .success)))
        ∧ (s.dev.oasisStart = true → Gives s (.activatefirmware env) ((s.dev.beginStart s.fuses env).reply (.done .success)))
        ∧ (s.dev.start.state = .oasis → s.dev.oasisStart = false → Gives s (.activatefirmware env) (s.dev.reply (.done .invalidState))))

/-! ### The whole machine -/

/-- Every command answers a next state and leaves the queue of waiting commands alone; a step takes exactly the front one. -/
def Obligations.EveryCommandAnswers : Prop :=
  (∀ (c : Instr) (s : State), ∃ t, exec c s = .next t ∧ t.pending = s.pending)
  ∧ (∀ s : State, ∃ t, step s = .next t ∧ t.pending = s.pending.tail)

/-- No step undoes a fuse: the anti-rollback count never falls, and rises by ROLLBACK_COMMIT alone (18 R517); a revoked key
stays revoked, a provisioned owner stays, a field return stays (18 R514, R516, R530), and what manufacture fixed never
changes.
Every step keeps the fuses legal: the count is 0-128, and one key index at least is not revoked (18 R514, R517). -/
def Obligations.FusesOnlyBlow : Prop :=
  (
  ∀ (u : Fuses) (s t : State), step s = .next t → FusesKept u s.fuses →
    FusesKept u t.fuses
    ∧ (s.fuses.counter < t.fuses.counter → ∃ ok rest, s.pending = .rollbackCommit ok :: rest)
    ∧ (t.fuses.revoked ≠ s.fuses.revoked → ∃ tok r f rest, s.pending = .revokeKey tok r f :: rest)
    ∧ (t.fuses.ownerDigest ≠ s.fuses.ownerDigest → ∃ m r f rest, s.pending = .ownerProvision m r f :: rest))
  ∧ (
  ∀ s t : State, step s = .next t → FusesLegal s.fuses → FusesLegal t.fuses)

/-- Right after reset every register of the host port whose table gives it the reset value 0 reads 0, and the free places
of a mailbox 16 (02 R74, 08 R279, 09 R304, 10 R327, 11 R336, 12 R387, 13 R399, 14 R415, R425, 15 R464, 16 R488, 17 R504, R506,
19 R554); the part is SEALED with key_lock clear (18 R521), no command waits, and the fuses are legal. -/
def Obligations.ResetValues : Prop :=
  let d := State.reset.dev
  let r := fun (off : Nat) => d.bar0Reg State.reset.fuses 0 off
  (∀ off ∈ [0x00, 0x08, 0x10, 0x18, 0x20, 0x28, 0x10000, 0x20010, 0x20050, 0x20058, 0x20070, 0x20078, 0x200C8, 0x200D0,
      0x30000, 0x30008, 0x30018, 0x30300, 0x30308], r off = 0)
  ∧ (∀ p, p < 4 → r (0x20080 + 8 * p) = 0 ∧ r (0x20200 + 16 * p) = 0 ∧ r (0x20208 + 16 * p) = 0)
  ∧ (∀ c, c < 768 → r (0x21000 + 16 * c) = 0 ∧ r (0x21008 + 16 * c) = 0)
  ∧ (∀ i, i < 256 → r (0x24000 + 32 * i) = 0 ∧ r (0x24010 + 32 * i) = 0)
  ∧ (∀ k, k < 64 → r (0x11100 + 8 * k) = 0)
  ∧ (∀ q, d.queue q = {})
  ∧ r 0x080010 = 16 ∧ r 0x081010 = 16 ∧ (∀ i, i < 256 → r (0x0C0010 + 0x400 * i) = 16 ∧ r (0x0C0200 + 0x400 * i) = 0)
  ∧ d.sec.sealSt = .sealed ∧ d.sec.keyLock = false
  ∧ State.reset.pending = [] ∧ FusesLegal State.reset.fuses

/-- The words of 04 R136-R141 with the opcodes of R146: a word built from its fields decodes to the instruction with those
fields, with every operand at every value, and an opcode that R146 does not assign decodes to none. -/
def Obligations.WordsReadBack : Prop :=
  ∀ g : GroupRef,
    (∀ oc ∈ opcodesA, ∀ w : FmtA, (w.lf = false → w.imm = 0) → decodeIns g (encodeA oc.1 w) w.imm = some (oc.2 g w))
    ∧ (∀ oc ∈ opcodesI, ∀ (w : FmtI) (imm : DWord), decodeIns g (encodeI oc.1 w) imm = some (oc.2 g w))
    ∧ (∀ oc ∈ opcodesM, ∀ w : FmtM, (w.lf = false → w.imm = 0) → decodeIns g (encodeM oc.1 w) w.imm = some (oc.2 g w))
    ∧ (∀ oc ∈ opcodesB, ∀ w : FmtB, (w.lf = false → w.imm = 0) → decodeIns g (encodeB oc.1 w) w.imm = some (oc.2 g w))
    ∧ (∀ w imm : DWord, w.toNat % 1024 ∉ opcodesA.map (fun x => x.1) → w.toNat % 1024 ∉ opcodesI.map (fun x => x.1) →
        w.toNat % 1024 ∉ opcodesM.map (fun x => x.1) → w.toNat % 1024 ∉ opcodesB.map (fun x => x.1) → decodeIns g w imm = none)
end

