-- ==== Sys2Proof/Laws/Ops.lean ====
section
/-! SUPPORT. Reads after writes of sparse data and memory, and the canonical form that every write keeps. -/

namespace Sys2Proof.Machine

/-! ## Reads after writes -/

theorem sget_sput {α : Type} (d : α) (l : Sparse α) (k : Nat) (x : α) (j : Nat) :
    sget d (sput l k x) j = if j = k then x else sget d l j := by
  induction l with
  | nil =>
    by_cases h : k = j
    · subst h; simp [sput, sget]
    · simp [sput, sget, h, show ¬ j = k from fun e => h e.symm]
  | cons e r ih =>
    obtain ⟨k', v⟩ := e
    by_cases h1 : k' = k
    · subst h1
      by_cases h : k' = j
      · subst h; simp [sput, sget]
      · simp [sput, sget, h, show ¬ j = k' from fun e => h e.symm]
    · by_cases h2 : k < k'
      · by_cases h : k = j
        · subst h; simp [sput, sget, h1, h2]
        · simp [sput, sget, h1, h2, h, show ¬ j = k from fun e => h e.symm]
      · by_cases h3 : k' = j
        · subst h3; simp [sput, sget, h1, h2]
        · simp [sput, sget, h1, h2, h3, ih]

theorem sfind_sput {α : Type} (l : Sparse α) (k : Nat) (x : α) (j : Nat) :
    sfind (sput l k x) j = if j = k then some x else sfind l j := by
  induction l with
  | nil =>
    by_cases h : k = j
    · subst h; simp [sput, sfind]
    · simp [sput, sfind, h, show ¬ j = k from fun e => h e.symm]
  | cons e r ih =>
    obtain ⟨k', v⟩ := e
    by_cases h1 : k' = k
    · subst h1
      by_cases h : k' = j
      · subst h; simp [sput, sfind]
      · simp [sput, sfind, h, show ¬ j = k' from fun e => h e.symm]
    · by_cases h2 : k < k'
      · by_cases h : k = j
        · subst h; simp [sput, sfind, h1, h2]
        · simp [sput, sfind, h1, h2, h, show ¬ j = k from fun e => h e.symm]
      · by_cases h3 : k' = j
        · subst h3; simp [sput, sfind, h1, h2]
        · simp [sput, sfind, h1, h2, h3, ih]

theorem sget_sdel {α : Type} (d : α) (l : Sparse α) (k j : Nat) :
    sget d (sdel l k) j = if j = k then d else sget d l j := by
  induction l with
  | nil => simp [sdel, sget]
  | cons e r ih =>
    obtain ⟨k', v⟩ := e
    simp only [sdel] at ih ⊢
    by_cases h : k' = k
    · subst h
      by_cases hj : j = k'
      · subst hj; simpa using ih
      · simp [sget, ih, hj, Ne.symm hj]
    · by_cases hj : k' = j
      · subst hj; simp [h, sget]
      · simp [h, hj, sget, ih]

theorem sfind_sdel {α : Type} (l : Sparse α) (k j : Nat) :
    sfind (sdel l k) j = if j = k then none else sfind l j := by
  induction l with
  | nil => simp [sdel, sfind]
  | cons e r ih =>
    obtain ⟨k', v⟩ := e
    simp only [sdel] at ih ⊢
    by_cases h : k' = k
    · subst h
      by_cases hj : j = k'
      · subst hj; simpa using ih
      · simp [sfind, ih, hj, Ne.symm hj]
    · by_cases hj : k' = j
      · subst hj; simp [h, sfind]
      · simp [h, hj, sfind, ih]

/-- A read after a write: the value at the key written, as before elsewhere. -/
theorem sget_sset {α : Type} [DecidableEq α] (d : α) (l : Sparse α) (k : Nat) (x : α) (j : Nat) :
    sget d (sset d l k x) j = if j = k then x else sget d l j := by
  by_cases h : x = d <;> simp [sset, h, sget_sput, sget_sdel]

/-! ## The canonical form -/

theorem scanonFrom_mono {α : Type} [DecidableEq α] (d : α) (l : Sparse α) (a b : Nat) (h : a ≤ b)
    (hl : scanonFrom d b l = true) : scanonFrom d a l = true := by
  cases l with
  | nil => rfl
  | cons e r =>
    obtain ⟨k, v⟩ := e
    simp only [scanonFrom, Bool.and_eq_true, decide_eq_true_eq] at hl ⊢
    exact ⟨⟨by omega, hl.1.2⟩, hl.2⟩

theorem scanonFrom_filter {α : Type} [DecidableEq α] (d : α) (p : Nat × α → Bool) (l : Sparse α) (a : Nat)
    (hl : scanonFrom d a l = true) : scanonFrom d a (l.filter p) = true := by
  induction l generalizing a with
  | nil => rfl
  | cons e r ih =>
    obtain ⟨k, v⟩ := e
    simp only [scanonFrom, Bool.and_eq_true, decide_eq_true_eq] at hl
    rw [List.filter_cons]
    split
    · simp only [scanonFrom, Bool.and_eq_true, decide_eq_true_eq]
      exact ⟨hl.1, ih _ hl.2⟩
    · exact ih a (scanonFrom_mono d r a (k + 1) (by omega) hl.2)

theorem scanonFrom_sput {α : Type} [DecidableEq α] (d : α) (l : Sparse α) (k : Nat) (x : α) (a : Nat) (hx : x ≠ d)
    (ha : a ≤ k) (hl : scanonFrom d a l = true) : scanonFrom d a (sput l k x) = true := by
  induction l generalizing a with
  | nil => simp [sput, scanonFrom, hx, ha]
  | cons e r ih =>
    obtain ⟨k', v⟩ := e
    simp only [scanonFrom, Bool.and_eq_true, decide_eq_true_eq] at hl
    by_cases h1 : k' = k
    · subst h1; simp [sput, scanonFrom, hx, ha, hl.2]
    · by_cases h2 : k < k'
      · simp only [sput, h1, h2, if_true, if_false, scanonFrom, Bool.and_eq_true, decide_eq_true_eq]
        exact ⟨⟨ha, hx⟩, ⟨by omega, hl.1.2⟩, hl.2⟩
      · simp only [sput, h1, h2, if_false, scanonFrom, Bool.and_eq_true, decide_eq_true_eq]
        exact ⟨hl.1, ih _ (by omega) hl.2⟩

/-- Every write keeps the canonical form. -/
theorem scanon_sset {α : Type} [DecidableEq α] (d : α) (l : Sparse α) (k : Nat) (x : α) (hl : scanon d l = true) :
    scanon d (sset d l k x) = true := by
  by_cases h : x = d
  · simp only [sset, h, if_true, scanon, sdel]; exact scanonFrom_filter d _ l 0 hl
  · simp only [sset, h, if_false, scanon]; exact scanonFrom_sput d l k x 0 h (Nat.zero_le k) hl

/-! ## Memory -/

@[simp] theorem Mem.read_write (m : Mem) (a : Nat) (b : Byte) (j : Nat) :
    (m.write a b).read j = if j = a then b else m.read j := sget_sset 0#8 m a b j

theorem Mem.write_wf (m : Mem) (a : Nat) (b : Byte) (h : m.wf = true) : (m.write a b).wf = true := scanon_sset 0#8 m a b h

theorem Mem.writeNat_wf (m : Mem) (a n v : Nat) (h : m.wf = true) : (m.writeNat a n v).wf = true := by
  induction n generalizing m a v with
  | zero => exact h
  | succ n ih => exact ih _ _ _ (Mem.write_wf m a _ h)

theorem Mem.zero_wf (m : Mem) (a n : Nat) (h : m.wf = true) : (m.zero a n).wf = true := scanonFrom_filter 0#8 _ m 0 h

/-- Bytes outside a written range read as before. -/
theorem Mem.writeNat_read_other (m : Mem) (a n v j : Nat) (h : j < a ∨ a + n ≤ j) : (m.writeNat a n v).read j = m.read j := by
  induction n generalizing m a v with
  | zero => rfl
  | succ n ih =>
    rw [Mem.writeNat, ih _ _ _ (by omega), Mem.read_write, if_neg (by omega)]

/-- A number reads back from where it was written, cut to the bytes written. -/
theorem Mem.readNat_writeNat (m : Mem) (a n v : Nat) : (m.writeNat a n v).readNat a n = v % 256 ^ n := by
  induction n generalizing m a v with
  | zero => simp [Mem.readNat, Nat.mod_one]
  | succ n ih =>
    rw [Mem.writeNat, Mem.readNat, ih, Mem.writeNat_read_other _ _ _ _ _ (by omega), Mem.read_write, if_pos rfl]
    have e : (256 : Nat) ^ (n + 1) = 256 * 256 ^ n := by rw [Nat.pow_succ, Nat.mul_comm]
    simp only [BitVec.toNat_ofNat, e]
    exact (Nat.mod_mul).symm

end Sys2Proof.Machine
end

