-- ==== Sys2Proof/Laws/State.lean ====
section
/-! SUPPORT. Reads of the device after an update: one lemma for each field and update, and what a read of the updated
element gives. -/

namespace Sys2Proof.Machine

open Sys2Proof

/-! ## setCore -/

@[simp] theorem Dev.setCore_fresh (d : Dev) (k : Nat) (x : Core) : (d.setCore k x).fresh = d.fresh := rfl
@[simp] theorem Dev.setCore_nextId (d : Dev) (k : Nat) (x : Core) : (d.setCore k x).nextId = d.nextId := rfl
@[simp] theorem Dev.setCore_flash (d : Dev) (k : Nat) (x : Core) : (d.setCore k x).flash = d.flash := rfl
@[simp] theorem Dev.setCore_start (d : Dev) (k : Nat) (x : Core) : (d.setCore k x).start = d.start := rfl
@[simp] theorem Dev.setCore_conf (d : Dev) (k : Nat) (x : Core) : (d.setCore k x).conf = d.conf := rfl
@[simp] theorem Dev.setCore_time (d : Dev) (k : Nat) (x : Core) : (d.setCore k x).time = d.time := rfl
@[simp] theorem Dev.setCore_parts (d : Dev) (k : Nat) (x : Core) : (d.setCore k x).parts = d.parts := rfl
@[simp] theorem Dev.setCore_insts (d : Dev) (k : Nat) (x : Core) : (d.setCore k x).insts = d.insts := rfl
@[simp] theorem Dev.setCore_queues (d : Dev) (k : Nat) (x : Core) : (d.setCore k x).queues = d.queues := rfl
@[simp] theorem Dev.setCore_tasks (d : Dev) (k : Nat) (x : Core) : (d.setCore k x).tasks = d.tasks := rfl
@[simp] theorem Dev.setCore_runs (d : Dev) (k : Nat) (x : Core) : (d.setCore k x).runs = d.runs := rfl
@[simp] theorem Dev.setCore_engOuts (d : Dev) (k : Nat) (x : Core) : (d.setCore k x).engOuts = d.engOuts := rfl
@[simp] theorem Dev.setCore_engines (d : Dev) (k : Nat) (x : Core) : (d.setCore k x).engines = d.engines := rfl
@[simp] theorem Dev.setCore_groups (d : Dev) (k : Nat) (x : Core) : (d.setCore k x).groups = d.groups := rfl
@[simp] theorem Dev.setCore_munits (d : Dev) (k : Nat) (x : Core) : (d.setCore k x).munits = d.munits := rfl
@[simp] theorem Dev.setCore_slices (d : Dev) (k : Nat) (x : Core) : (d.setCore k x).slices = d.slices := rfl
@[simp] theorem Dev.setCore_chans (d : Dev) (k : Nat) (x : Core) : (d.setCore k x).chans = d.chans := rfl
@[simp] theorem Dev.setCore_mem (d : Dev) (k : Nat) (x : Core) : (d.setCore k x).mem = d.mem := rfl
@[simp] theorem Dev.setCore_net (d : Dev) (k : Nat) (x : Core) : (d.setCore k x).net = d.net := rfl
@[simp] theorem Dev.setCore_toHost (d : Dev) (k : Nat) (x : Core) : (d.setCore k x).toHost = d.toHost := rfl
@[simp] theorem Dev.setCore_mbox (d : Dev) (k : Nat) (x : Core) : (d.setCore k x).mbox = d.mbox := rfl
@[simp] theorem Dev.setCore_rings (d : Dev) (k : Nat) (x : Core) : (d.setCore k x).rings = d.rings := rfl
@[simp] theorem Dev.setCore_xlate (d : Dev) (k : Nat) (x : Core) : (d.setCore k x).xlate = d.xlate := rfl
@[simp] theorem Dev.setCore_faults (d : Dev) (k : Nat) (x : Core) : (d.setCore k x).faults = d.faults := rfl
@[simp] theorem Dev.setCore_inj (d : Dev) (k : Nat) (x : Core) : (d.setCore k x).inj = d.inj := rfl
@[simp] theorem Dev.setCore_contBi (d : Dev) (k : Nat) (x : Core) : (d.setCore k x).contBi = d.contBi := rfl
@[simp] theorem Dev.setCore_counts (d : Dev) (k : Nat) (x : Core) : (d.setCore k x).counts = d.counts := rfl
@[simp] theorem Dev.setCore_host (d : Dev) (k : Nat) (x : Core) : (d.setCore k x).host = d.host := rfl
@[simp] theorem Dev.setCore_ledger (d : Dev) (k : Nat) (x : Core) : (d.setCore k x).ledger = d.ledger := rfl
@[simp] theorem Dev.setCore_coh (d : Dev) (k : Nat) (x : Core) : (d.setCore k x).coh = d.coh := rfl
@[simp] theorem Dev.setCore_stage (d : Dev) (k : Nat) (x : Core) : (d.setCore k x).stage = d.stage := rfl
@[simp] theorem Dev.setCore_power (d : Dev) (k : Nat) (x : Core) : (d.setCore k x).power = d.power := rfl
@[simp] theorem Dev.setCore_pps (d : Dev) (k : Nat) (x : Core) : (d.setCore k x).pps = d.pps := rfl
@[simp] theorem Dev.setCore_sec (d : Dev) (k : Nat) (x : Core) : (d.setCore k x).sec = d.sec := rfl
@[simp] theorem Dev.setCore_mgmt (d : Dev) (k : Nat) (x : Core) : (d.setCore k x).mgmt = d.mgmt := rfl
@[simp] theorem Dev.setCore_ports (d : Dev) (k : Nat) (x : Core) : (d.setCore k x).ports = d.ports := rfl
@[simp] theorem Dev.setCore_seif (d : Dev) (k : Nat) (x : Core) : (d.setCore k x).seif = d.seif := rfl
@[simp] theorem Dev.setCore_recalBase (d : Dev) (k : Nat) (x : Core) : (d.setCore k x).recalBase = d.recalBase := rfl

/-! ## setGroup -/

@[simp] theorem Dev.setGroup_fresh (d : Dev) (k : Nat) (x : Group) : (d.setGroup k x).fresh = d.fresh := rfl
@[simp] theorem Dev.setGroup_nextId (d : Dev) (k : Nat) (x : Group) : (d.setGroup k x).nextId = d.nextId := rfl
@[simp] theorem Dev.setGroup_flash (d : Dev) (k : Nat) (x : Group) : (d.setGroup k x).flash = d.flash := rfl
@[simp] theorem Dev.setGroup_start (d : Dev) (k : Nat) (x : Group) : (d.setGroup k x).start = d.start := rfl
@[simp] theorem Dev.setGroup_conf (d : Dev) (k : Nat) (x : Group) : (d.setGroup k x).conf = d.conf := rfl
@[simp] theorem Dev.setGroup_time (d : Dev) (k : Nat) (x : Group) : (d.setGroup k x).time = d.time := rfl
@[simp] theorem Dev.setGroup_parts (d : Dev) (k : Nat) (x : Group) : (d.setGroup k x).parts = d.parts := rfl
@[simp] theorem Dev.setGroup_insts (d : Dev) (k : Nat) (x : Group) : (d.setGroup k x).insts = d.insts := rfl
@[simp] theorem Dev.setGroup_queues (d : Dev) (k : Nat) (x : Group) : (d.setGroup k x).queues = d.queues := rfl
@[simp] theorem Dev.setGroup_tasks (d : Dev) (k : Nat) (x : Group) : (d.setGroup k x).tasks = d.tasks := rfl
@[simp] theorem Dev.setGroup_runs (d : Dev) (k : Nat) (x : Group) : (d.setGroup k x).runs = d.runs := rfl
@[simp] theorem Dev.setGroup_engOuts (d : Dev) (k : Nat) (x : Group) : (d.setGroup k x).engOuts = d.engOuts := rfl
@[simp] theorem Dev.setGroup_engines (d : Dev) (k : Nat) (x : Group) : (d.setGroup k x).engines = d.engines := rfl
@[simp] theorem Dev.setGroup_cores (d : Dev) (k : Nat) (x : Group) : (d.setGroup k x).cores = d.cores := rfl
@[simp] theorem Dev.setGroup_munits (d : Dev) (k : Nat) (x : Group) : (d.setGroup k x).munits = d.munits := rfl
@[simp] theorem Dev.setGroup_slices (d : Dev) (k : Nat) (x : Group) : (d.setGroup k x).slices = d.slices := rfl
@[simp] theorem Dev.setGroup_chans (d : Dev) (k : Nat) (x : Group) : (d.setGroup k x).chans = d.chans := rfl
@[simp] theorem Dev.setGroup_mem (d : Dev) (k : Nat) (x : Group) : (d.setGroup k x).mem = d.mem := rfl
@[simp] theorem Dev.setGroup_net (d : Dev) (k : Nat) (x : Group) : (d.setGroup k x).net = d.net := rfl
@[simp] theorem Dev.setGroup_toHost (d : Dev) (k : Nat) (x : Group) : (d.setGroup k x).toHost = d.toHost := rfl
@[simp] theorem Dev.setGroup_mbox (d : Dev) (k : Nat) (x : Group) : (d.setGroup k x).mbox = d.mbox := rfl
@[simp] theorem Dev.setGroup_rings (d : Dev) (k : Nat) (x : Group) : (d.setGroup k x).rings = d.rings := rfl
@[simp] theorem Dev.setGroup_xlate (d : Dev) (k : Nat) (x : Group) : (d.setGroup k x).xlate = d.xlate := rfl
@[simp] theorem Dev.setGroup_faults (d : Dev) (k : Nat) (x : Group) : (d.setGroup k x).faults = d.faults := rfl
@[simp] theorem Dev.setGroup_inj (d : Dev) (k : Nat) (x : Group) : (d.setGroup k x).inj = d.inj := rfl
@[simp] theorem Dev.setGroup_contBi (d : Dev) (k : Nat) (x : Group) : (d.setGroup k x).contBi = d.contBi := rfl
@[simp] theorem Dev.setGroup_counts (d : Dev) (k : Nat) (x : Group) : (d.setGroup k x).counts = d.counts := rfl
@[simp] theorem Dev.setGroup_host (d : Dev) (k : Nat) (x : Group) : (d.setGroup k x).host = d.host := rfl
@[simp] theorem Dev.setGroup_ledger (d : Dev) (k : Nat) (x : Group) : (d.setGroup k x).ledger = d.ledger := rfl
@[simp] theorem Dev.setGroup_coh (d : Dev) (k : Nat) (x : Group) : (d.setGroup k x).coh = d.coh := rfl
@[simp] theorem Dev.setGroup_stage (d : Dev) (k : Nat) (x : Group) : (d.setGroup k x).stage = d.stage := rfl
@[simp] theorem Dev.setGroup_power (d : Dev) (k : Nat) (x : Group) : (d.setGroup k x).power = d.power := rfl
@[simp] theorem Dev.setGroup_pps (d : Dev) (k : Nat) (x : Group) : (d.setGroup k x).pps = d.pps := rfl
@[simp] theorem Dev.setGroup_sec (d : Dev) (k : Nat) (x : Group) : (d.setGroup k x).sec = d.sec := rfl
@[simp] theorem Dev.setGroup_mgmt (d : Dev) (k : Nat) (x : Group) : (d.setGroup k x).mgmt = d.mgmt := rfl
@[simp] theorem Dev.setGroup_ports (d : Dev) (k : Nat) (x : Group) : (d.setGroup k x).ports = d.ports := rfl
@[simp] theorem Dev.setGroup_seif (d : Dev) (k : Nat) (x : Group) : (d.setGroup k x).seif = d.seif := rfl
@[simp] theorem Dev.setGroup_recalBase (d : Dev) (k : Nat) (x : Group) : (d.setGroup k x).recalBase = d.recalBase := rfl

/-! ## delGroup -/

@[simp] theorem Dev.delGroup_fresh (d : Dev) (k : Nat) : (d.delGroup k).fresh = d.fresh := rfl
@[simp] theorem Dev.delGroup_nextId (d : Dev) (k : Nat) : (d.delGroup k).nextId = d.nextId := rfl
@[simp] theorem Dev.delGroup_flash (d : Dev) (k : Nat) : (d.delGroup k).flash = d.flash := rfl
@[simp] theorem Dev.delGroup_start (d : Dev) (k : Nat) : (d.delGroup k).start = d.start := rfl
@[simp] theorem Dev.delGroup_conf (d : Dev) (k : Nat) : (d.delGroup k).conf = d.conf := rfl
@[simp] theorem Dev.delGroup_time (d : Dev) (k : Nat) : (d.delGroup k).time = d.time := rfl
@[simp] theorem Dev.delGroup_parts (d : Dev) (k : Nat) : (d.delGroup k).parts = d.parts := rfl
@[simp] theorem Dev.delGroup_insts (d : Dev) (k : Nat) : (d.delGroup k).insts = d.insts := rfl
@[simp] theorem Dev.delGroup_queues (d : Dev) (k : Nat) : (d.delGroup k).queues = d.queues := rfl
@[simp] theorem Dev.delGroup_tasks (d : Dev) (k : Nat) : (d.delGroup k).tasks = d.tasks := rfl
@[simp] theorem Dev.delGroup_runs (d : Dev) (k : Nat) : (d.delGroup k).runs = d.runs := rfl
@[simp] theorem Dev.delGroup_engOuts (d : Dev) (k : Nat) : (d.delGroup k).engOuts = d.engOuts := rfl
@[simp] theorem Dev.delGroup_engines (d : Dev) (k : Nat) : (d.delGroup k).engines = d.engines := rfl
@[simp] theorem Dev.delGroup_cores (d : Dev) (k : Nat) : (d.delGroup k).cores = d.cores := rfl
@[simp] theorem Dev.delGroup_munits (d : Dev) (k : Nat) : (d.delGroup k).munits = d.munits := rfl
@[simp] theorem Dev.delGroup_slices (d : Dev) (k : Nat) : (d.delGroup k).slices = d.slices := rfl
@[simp] theorem Dev.delGroup_chans (d : Dev) (k : Nat) : (d.delGroup k).chans = d.chans := rfl
@[simp] theorem Dev.delGroup_mem (d : Dev) (k : Nat) : (d.delGroup k).mem = d.mem := rfl
@[simp] theorem Dev.delGroup_net (d : Dev) (k : Nat) : (d.delGroup k).net = d.net := rfl
@[simp] theorem Dev.delGroup_toHost (d : Dev) (k : Nat) : (d.delGroup k).toHost = d.toHost := rfl
@[simp] theorem Dev.delGroup_mbox (d : Dev) (k : Nat) : (d.delGroup k).mbox = d.mbox := rfl
@[simp] theorem Dev.delGroup_rings (d : Dev) (k : Nat) : (d.delGroup k).rings = d.rings := rfl
@[simp] theorem Dev.delGroup_xlate (d : Dev) (k : Nat) : (d.delGroup k).xlate = d.xlate := rfl
@[simp] theorem Dev.delGroup_faults (d : Dev) (k : Nat) : (d.delGroup k).faults = d.faults := rfl
@[simp] theorem Dev.delGroup_inj (d : Dev) (k : Nat) : (d.delGroup k).inj = d.inj := rfl
@[simp] theorem Dev.delGroup_contBi (d : Dev) (k : Nat) : (d.delGroup k).contBi = d.contBi := rfl
@[simp] theorem Dev.delGroup_counts (d : Dev) (k : Nat) : (d.delGroup k).counts = d.counts := rfl
@[simp] theorem Dev.delGroup_host (d : Dev) (k : Nat) : (d.delGroup k).host = d.host := rfl
@[simp] theorem Dev.delGroup_ledger (d : Dev) (k : Nat) : (d.delGroup k).ledger = d.ledger := rfl
@[simp] theorem Dev.delGroup_coh (d : Dev) (k : Nat) : (d.delGroup k).coh = d.coh := rfl
@[simp] theorem Dev.delGroup_stage (d : Dev) (k : Nat) : (d.delGroup k).stage = d.stage := rfl
@[simp] theorem Dev.delGroup_power (d : Dev) (k : Nat) : (d.delGroup k).power = d.power := rfl
@[simp] theorem Dev.delGroup_pps (d : Dev) (k : Nat) : (d.delGroup k).pps = d.pps := rfl
@[simp] theorem Dev.delGroup_sec (d : Dev) (k : Nat) : (d.delGroup k).sec = d.sec := rfl
@[simp] theorem Dev.delGroup_mgmt (d : Dev) (k : Nat) : (d.delGroup k).mgmt = d.mgmt := rfl
@[simp] theorem Dev.delGroup_ports (d : Dev) (k : Nat) : (d.delGroup k).ports = d.ports := rfl
@[simp] theorem Dev.delGroup_seif (d : Dev) (k : Nat) : (d.delGroup k).seif = d.seif := rfl
@[simp] theorem Dev.delGroup_recalBase (d : Dev) (k : Nat) : (d.delGroup k).recalBase = d.recalBase := rfl

/-! ## setMunit -/

@[simp] theorem Dev.setMunit_fresh (d : Dev) (k : Nat) (x : List MatEntry) : (d.setMunit k x).fresh = d.fresh := rfl
@[simp] theorem Dev.setMunit_nextId (d : Dev) (k : Nat) (x : List MatEntry) : (d.setMunit k x).nextId = d.nextId := rfl
@[simp] theorem Dev.setMunit_flash (d : Dev) (k : Nat) (x : List MatEntry) : (d.setMunit k x).flash = d.flash := rfl
@[simp] theorem Dev.setMunit_start (d : Dev) (k : Nat) (x : List MatEntry) : (d.setMunit k x).start = d.start := rfl
@[simp] theorem Dev.setMunit_conf (d : Dev) (k : Nat) (x : List MatEntry) : (d.setMunit k x).conf = d.conf := rfl
@[simp] theorem Dev.setMunit_time (d : Dev) (k : Nat) (x : List MatEntry) : (d.setMunit k x).time = d.time := rfl
@[simp] theorem Dev.setMunit_parts (d : Dev) (k : Nat) (x : List MatEntry) : (d.setMunit k x).parts = d.parts := rfl
@[simp] theorem Dev.setMunit_insts (d : Dev) (k : Nat) (x : List MatEntry) : (d.setMunit k x).insts = d.insts := rfl
@[simp] theorem Dev.setMunit_queues (d : Dev) (k : Nat) (x : List MatEntry) : (d.setMunit k x).queues = d.queues := rfl
@[simp] theorem Dev.setMunit_tasks (d : Dev) (k : Nat) (x : List MatEntry) : (d.setMunit k x).tasks = d.tasks := rfl
@[simp] theorem Dev.setMunit_runs (d : Dev) (k : Nat) (x : List MatEntry) : (d.setMunit k x).runs = d.runs := rfl
@[simp] theorem Dev.setMunit_engOuts (d : Dev) (k : Nat) (x : List MatEntry) : (d.setMunit k x).engOuts = d.engOuts := rfl
@[simp] theorem Dev.setMunit_engines (d : Dev) (k : Nat) (x : List MatEntry) : (d.setMunit k x).engines = d.engines := rfl
@[simp] theorem Dev.setMunit_cores (d : Dev) (k : Nat) (x : List MatEntry) : (d.setMunit k x).cores = d.cores := rfl
@[simp] theorem Dev.setMunit_groups (d : Dev) (k : Nat) (x : List MatEntry) : (d.setMunit k x).groups = d.groups := rfl
@[simp] theorem Dev.setMunit_slices (d : Dev) (k : Nat) (x : List MatEntry) : (d.setMunit k x).slices = d.slices := rfl
@[simp] theorem Dev.setMunit_chans (d : Dev) (k : Nat) (x : List MatEntry) : (d.setMunit k x).chans = d.chans := rfl
@[simp] theorem Dev.setMunit_mem (d : Dev) (k : Nat) (x : List MatEntry) : (d.setMunit k x).mem = d.mem := rfl
@[simp] theorem Dev.setMunit_net (d : Dev) (k : Nat) (x : List MatEntry) : (d.setMunit k x).net = d.net := rfl
@[simp] theorem Dev.setMunit_toHost (d : Dev) (k : Nat) (x : List MatEntry) : (d.setMunit k x).toHost = d.toHost := rfl
@[simp] theorem Dev.setMunit_mbox (d : Dev) (k : Nat) (x : List MatEntry) : (d.setMunit k x).mbox = d.mbox := rfl
@[simp] theorem Dev.setMunit_rings (d : Dev) (k : Nat) (x : List MatEntry) : (d.setMunit k x).rings = d.rings := rfl
@[simp] theorem Dev.setMunit_xlate (d : Dev) (k : Nat) (x : List MatEntry) : (d.setMunit k x).xlate = d.xlate := rfl
@[simp] theorem Dev.setMunit_faults (d : Dev) (k : Nat) (x : List MatEntry) : (d.setMunit k x).faults = d.faults := rfl
@[simp] theorem Dev.setMunit_inj (d : Dev) (k : Nat) (x : List MatEntry) : (d.setMunit k x).inj = d.inj := rfl
@[simp] theorem Dev.setMunit_contBi (d : Dev) (k : Nat) (x : List MatEntry) : (d.setMunit k x).contBi = d.contBi := rfl
@[simp] theorem Dev.setMunit_counts (d : Dev) (k : Nat) (x : List MatEntry) : (d.setMunit k x).counts = d.counts := rfl
@[simp] theorem Dev.setMunit_host (d : Dev) (k : Nat) (x : List MatEntry) : (d.setMunit k x).host = d.host := rfl
@[simp] theorem Dev.setMunit_ledger (d : Dev) (k : Nat) (x : List MatEntry) : (d.setMunit k x).ledger = d.ledger := rfl
@[simp] theorem Dev.setMunit_coh (d : Dev) (k : Nat) (x : List MatEntry) : (d.setMunit k x).coh = d.coh := rfl
@[simp] theorem Dev.setMunit_stage (d : Dev) (k : Nat) (x : List MatEntry) : (d.setMunit k x).stage = d.stage := rfl
@[simp] theorem Dev.setMunit_power (d : Dev) (k : Nat) (x : List MatEntry) : (d.setMunit k x).power = d.power := rfl
@[simp] theorem Dev.setMunit_pps (d : Dev) (k : Nat) (x : List MatEntry) : (d.setMunit k x).pps = d.pps := rfl
@[simp] theorem Dev.setMunit_sec (d : Dev) (k : Nat) (x : List MatEntry) : (d.setMunit k x).sec = d.sec := rfl
@[simp] theorem Dev.setMunit_mgmt (d : Dev) (k : Nat) (x : List MatEntry) : (d.setMunit k x).mgmt = d.mgmt := rfl
@[simp] theorem Dev.setMunit_ports (d : Dev) (k : Nat) (x : List MatEntry) : (d.setMunit k x).ports = d.ports := rfl
@[simp] theorem Dev.setMunit_seif (d : Dev) (k : Nat) (x : List MatEntry) : (d.setMunit k x).seif = d.seif := rfl
@[simp] theorem Dev.setMunit_recalBase (d : Dev) (k : Nat) (x : List MatEntry) : (d.setMunit k x).recalBase = d.recalBase := rfl

/-! ## setSlice -/

@[simp] theorem Dev.setSlice_fresh (d : Dev) (k : Nat) (x : Slice) : (d.setSlice k x).fresh = d.fresh := rfl
@[simp] theorem Dev.setSlice_nextId (d : Dev) (k : Nat) (x : Slice) : (d.setSlice k x).nextId = d.nextId := rfl
@[simp] theorem Dev.setSlice_flash (d : Dev) (k : Nat) (x : Slice) : (d.setSlice k x).flash = d.flash := rfl
@[simp] theorem Dev.setSlice_start (d : Dev) (k : Nat) (x : Slice) : (d.setSlice k x).start = d.start := rfl
@[simp] theorem Dev.setSlice_conf (d : Dev) (k : Nat) (x : Slice) : (d.setSlice k x).conf = d.conf := rfl
@[simp] theorem Dev.setSlice_time (d : Dev) (k : Nat) (x : Slice) : (d.setSlice k x).time = d.time := rfl
@[simp] theorem Dev.setSlice_parts (d : Dev) (k : Nat) (x : Slice) : (d.setSlice k x).parts = d.parts := rfl
@[simp] theorem Dev.setSlice_insts (d : Dev) (k : Nat) (x : Slice) : (d.setSlice k x).insts = d.insts := rfl
@[simp] theorem Dev.setSlice_queues (d : Dev) (k : Nat) (x : Slice) : (d.setSlice k x).queues = d.queues := rfl
@[simp] theorem Dev.setSlice_tasks (d : Dev) (k : Nat) (x : Slice) : (d.setSlice k x).tasks = d.tasks := rfl
@[simp] theorem Dev.setSlice_runs (d : Dev) (k : Nat) (x : Slice) : (d.setSlice k x).runs = d.runs := rfl
@[simp] theorem Dev.setSlice_engOuts (d : Dev) (k : Nat) (x : Slice) : (d.setSlice k x).engOuts = d.engOuts := rfl
@[simp] theorem Dev.setSlice_engines (d : Dev) (k : Nat) (x : Slice) : (d.setSlice k x).engines = d.engines := rfl
@[simp] theorem Dev.setSlice_cores (d : Dev) (k : Nat) (x : Slice) : (d.setSlice k x).cores = d.cores := rfl
@[simp] theorem Dev.setSlice_groups (d : Dev) (k : Nat) (x : Slice) : (d.setSlice k x).groups = d.groups := rfl
@[simp] theorem Dev.setSlice_munits (d : Dev) (k : Nat) (x : Slice) : (d.setSlice k x).munits = d.munits := rfl
@[simp] theorem Dev.setSlice_chans (d : Dev) (k : Nat) (x : Slice) : (d.setSlice k x).chans = d.chans := rfl
@[simp] theorem Dev.setSlice_mem (d : Dev) (k : Nat) (x : Slice) : (d.setSlice k x).mem = d.mem := rfl
@[simp] theorem Dev.setSlice_net (d : Dev) (k : Nat) (x : Slice) : (d.setSlice k x).net = d.net := rfl
@[simp] theorem Dev.setSlice_toHost (d : Dev) (k : Nat) (x : Slice) : (d.setSlice k x).toHost = d.toHost := rfl
@[simp] theorem Dev.setSlice_mbox (d : Dev) (k : Nat) (x : Slice) : (d.setSlice k x).mbox = d.mbox := rfl
@[simp] theorem Dev.setSlice_rings (d : Dev) (k : Nat) (x : Slice) : (d.setSlice k x).rings = d.rings := rfl
@[simp] theorem Dev.setSlice_xlate (d : Dev) (k : Nat) (x : Slice) : (d.setSlice k x).xlate = d.xlate := rfl
@[simp] theorem Dev.setSlice_faults (d : Dev) (k : Nat) (x : Slice) : (d.setSlice k x).faults = d.faults := rfl
@[simp] theorem Dev.setSlice_inj (d : Dev) (k : Nat) (x : Slice) : (d.setSlice k x).inj = d.inj := rfl
@[simp] theorem Dev.setSlice_contBi (d : Dev) (k : Nat) (x : Slice) : (d.setSlice k x).contBi = d.contBi := rfl
@[simp] theorem Dev.setSlice_counts (d : Dev) (k : Nat) (x : Slice) : (d.setSlice k x).counts = d.counts := rfl
@[simp] theorem Dev.setSlice_host (d : Dev) (k : Nat) (x : Slice) : (d.setSlice k x).host = d.host := rfl
@[simp] theorem Dev.setSlice_ledger (d : Dev) (k : Nat) (x : Slice) : (d.setSlice k x).ledger = d.ledger := rfl
@[simp] theorem Dev.setSlice_coh (d : Dev) (k : Nat) (x : Slice) : (d.setSlice k x).coh = d.coh := rfl
@[simp] theorem Dev.setSlice_stage (d : Dev) (k : Nat) (x : Slice) : (d.setSlice k x).stage = d.stage := rfl
@[simp] theorem Dev.setSlice_power (d : Dev) (k : Nat) (x : Slice) : (d.setSlice k x).power = d.power := rfl
@[simp] theorem Dev.setSlice_pps (d : Dev) (k : Nat) (x : Slice) : (d.setSlice k x).pps = d.pps := rfl
@[simp] theorem Dev.setSlice_sec (d : Dev) (k : Nat) (x : Slice) : (d.setSlice k x).sec = d.sec := rfl
@[simp] theorem Dev.setSlice_mgmt (d : Dev) (k : Nat) (x : Slice) : (d.setSlice k x).mgmt = d.mgmt := rfl
@[simp] theorem Dev.setSlice_ports (d : Dev) (k : Nat) (x : Slice) : (d.setSlice k x).ports = d.ports := rfl
@[simp] theorem Dev.setSlice_seif (d : Dev) (k : Nat) (x : Slice) : (d.setSlice k x).seif = d.seif := rfl
@[simp] theorem Dev.setSlice_recalBase (d : Dev) (k : Nat) (x : Slice) : (d.setSlice k x).recalBase = d.recalBase := rfl

/-! ## setChan -/

@[simp] theorem Dev.setChan_fresh (d : Dev) (k : Nat) (x : Chan) : (d.setChan k x).fresh = d.fresh := rfl
@[simp] theorem Dev.setChan_nextId (d : Dev) (k : Nat) (x : Chan) : (d.setChan k x).nextId = d.nextId := rfl
@[simp] theorem Dev.setChan_flash (d : Dev) (k : Nat) (x : Chan) : (d.setChan k x).flash = d.flash := rfl
@[simp] theorem Dev.setChan_start (d : Dev) (k : Nat) (x : Chan) : (d.setChan k x).start = d.start := rfl
@[simp] theorem Dev.setChan_conf (d : Dev) (k : Nat) (x : Chan) : (d.setChan k x).conf = d.conf := rfl
@[simp] theorem Dev.setChan_time (d : Dev) (k : Nat) (x : Chan) : (d.setChan k x).time = d.time := rfl
@[simp] theorem Dev.setChan_parts (d : Dev) (k : Nat) (x : Chan) : (d.setChan k x).parts = d.parts := rfl
@[simp] theorem Dev.setChan_insts (d : Dev) (k : Nat) (x : Chan) : (d.setChan k x).insts = d.insts := rfl
@[simp] theorem Dev.setChan_queues (d : Dev) (k : Nat) (x : Chan) : (d.setChan k x).queues = d.queues := rfl
@[simp] theorem Dev.setChan_tasks (d : Dev) (k : Nat) (x : Chan) : (d.setChan k x).tasks = d.tasks := rfl
@[simp] theorem Dev.setChan_runs (d : Dev) (k : Nat) (x : Chan) : (d.setChan k x).runs = d.runs := rfl
@[simp] theorem Dev.setChan_engOuts (d : Dev) (k : Nat) (x : Chan) : (d.setChan k x).engOuts = d.engOuts := rfl
@[simp] theorem Dev.setChan_engines (d : Dev) (k : Nat) (x : Chan) : (d.setChan k x).engines = d.engines := rfl
@[simp] theorem Dev.setChan_cores (d : Dev) (k : Nat) (x : Chan) : (d.setChan k x).cores = d.cores := rfl
@[simp] theorem Dev.setChan_groups (d : Dev) (k : Nat) (x : Chan) : (d.setChan k x).groups = d.groups := rfl
@[simp] theorem Dev.setChan_munits (d : Dev) (k : Nat) (x : Chan) : (d.setChan k x).munits = d.munits := rfl
@[simp] theorem Dev.setChan_slices (d : Dev) (k : Nat) (x : Chan) : (d.setChan k x).slices = d.slices := rfl
@[simp] theorem Dev.setChan_mem (d : Dev) (k : Nat) (x : Chan) : (d.setChan k x).mem = d.mem := rfl
@[simp] theorem Dev.setChan_net (d : Dev) (k : Nat) (x : Chan) : (d.setChan k x).net = d.net := rfl
@[simp] theorem Dev.setChan_toHost (d : Dev) (k : Nat) (x : Chan) : (d.setChan k x).toHost = d.toHost := rfl
@[simp] theorem Dev.setChan_mbox (d : Dev) (k : Nat) (x : Chan) : (d.setChan k x).mbox = d.mbox := rfl
@[simp] theorem Dev.setChan_rings (d : Dev) (k : Nat) (x : Chan) : (d.setChan k x).rings = d.rings := rfl
@[simp] theorem Dev.setChan_xlate (d : Dev) (k : Nat) (x : Chan) : (d.setChan k x).xlate = d.xlate := rfl
@[simp] theorem Dev.setChan_faults (d : Dev) (k : Nat) (x : Chan) : (d.setChan k x).faults = d.faults := rfl
@[simp] theorem Dev.setChan_inj (d : Dev) (k : Nat) (x : Chan) : (d.setChan k x).inj = d.inj := rfl
@[simp] theorem Dev.setChan_contBi (d : Dev) (k : Nat) (x : Chan) : (d.setChan k x).contBi = d.contBi := rfl
@[simp] theorem Dev.setChan_counts (d : Dev) (k : Nat) (x : Chan) : (d.setChan k x).counts = d.counts := rfl
@[simp] theorem Dev.setChan_host (d : Dev) (k : Nat) (x : Chan) : (d.setChan k x).host = d.host := rfl
@[simp] theorem Dev.setChan_ledger (d : Dev) (k : Nat) (x : Chan) : (d.setChan k x).ledger = d.ledger := rfl
@[simp] theorem Dev.setChan_coh (d : Dev) (k : Nat) (x : Chan) : (d.setChan k x).coh = d.coh := rfl
@[simp] theorem Dev.setChan_stage (d : Dev) (k : Nat) (x : Chan) : (d.setChan k x).stage = d.stage := rfl
@[simp] theorem Dev.setChan_power (d : Dev) (k : Nat) (x : Chan) : (d.setChan k x).power = d.power := rfl
@[simp] theorem Dev.setChan_pps (d : Dev) (k : Nat) (x : Chan) : (d.setChan k x).pps = d.pps := rfl
@[simp] theorem Dev.setChan_sec (d : Dev) (k : Nat) (x : Chan) : (d.setChan k x).sec = d.sec := rfl
@[simp] theorem Dev.setChan_mgmt (d : Dev) (k : Nat) (x : Chan) : (d.setChan k x).mgmt = d.mgmt := rfl
@[simp] theorem Dev.setChan_ports (d : Dev) (k : Nat) (x : Chan) : (d.setChan k x).ports = d.ports := rfl
@[simp] theorem Dev.setChan_seif (d : Dev) (k : Nat) (x : Chan) : (d.setChan k x).seif = d.seif := rfl
@[simp] theorem Dev.setChan_recalBase (d : Dev) (k : Nat) (x : Chan) : (d.setChan k x).recalBase = d.recalBase := rfl

/-! ## setQueue -/

@[simp] theorem Dev.setQueue_fresh (d : Dev) (k : Nat) (x : Queue) : (d.setQueue k x).fresh = d.fresh := rfl
@[simp] theorem Dev.setQueue_nextId (d : Dev) (k : Nat) (x : Queue) : (d.setQueue k x).nextId = d.nextId := rfl
@[simp] theorem Dev.setQueue_flash (d : Dev) (k : Nat) (x : Queue) : (d.setQueue k x).flash = d.flash := rfl
@[simp] theorem Dev.setQueue_start (d : Dev) (k : Nat) (x : Queue) : (d.setQueue k x).start = d.start := rfl
@[simp] theorem Dev.setQueue_conf (d : Dev) (k : Nat) (x : Queue) : (d.setQueue k x).conf = d.conf := rfl
@[simp] theorem Dev.setQueue_time (d : Dev) (k : Nat) (x : Queue) : (d.setQueue k x).time = d.time := rfl
@[simp] theorem Dev.setQueue_parts (d : Dev) (k : Nat) (x : Queue) : (d.setQueue k x).parts = d.parts := rfl
@[simp] theorem Dev.setQueue_insts (d : Dev) (k : Nat) (x : Queue) : (d.setQueue k x).insts = d.insts := rfl
@[simp] theorem Dev.setQueue_tasks (d : Dev) (k : Nat) (x : Queue) : (d.setQueue k x).tasks = d.tasks := rfl
@[simp] theorem Dev.setQueue_runs (d : Dev) (k : Nat) (x : Queue) : (d.setQueue k x).runs = d.runs := rfl
@[simp] theorem Dev.setQueue_engOuts (d : Dev) (k : Nat) (x : Queue) : (d.setQueue k x).engOuts = d.engOuts := rfl
@[simp] theorem Dev.setQueue_engines (d : Dev) (k : Nat) (x : Queue) : (d.setQueue k x).engines = d.engines := rfl
@[simp] theorem Dev.setQueue_cores (d : Dev) (k : Nat) (x : Queue) : (d.setQueue k x).cores = d.cores := rfl
@[simp] theorem Dev.setQueue_groups (d : Dev) (k : Nat) (x : Queue) : (d.setQueue k x).groups = d.groups := rfl
@[simp] theorem Dev.setQueue_munits (d : Dev) (k : Nat) (x : Queue) : (d.setQueue k x).munits = d.munits := rfl
@[simp] theorem Dev.setQueue_slices (d : Dev) (k : Nat) (x : Queue) : (d.setQueue k x).slices = d.slices := rfl
@[simp] theorem Dev.setQueue_chans (d : Dev) (k : Nat) (x : Queue) : (d.setQueue k x).chans = d.chans := rfl
@[simp] theorem Dev.setQueue_mem (d : Dev) (k : Nat) (x : Queue) : (d.setQueue k x).mem = d.mem := rfl
@[simp] theorem Dev.setQueue_net (d : Dev) (k : Nat) (x : Queue) : (d.setQueue k x).net = d.net := rfl
@[simp] theorem Dev.setQueue_toHost (d : Dev) (k : Nat) (x : Queue) : (d.setQueue k x).toHost = d.toHost := rfl
@[simp] theorem Dev.setQueue_mbox (d : Dev) (k : Nat) (x : Queue) : (d.setQueue k x).mbox = d.mbox := rfl
@[simp] theorem Dev.setQueue_rings (d : Dev) (k : Nat) (x : Queue) : (d.setQueue k x).rings = d.rings := rfl
@[simp] theorem Dev.setQueue_xlate (d : Dev) (k : Nat) (x : Queue) : (d.setQueue k x).xlate = d.xlate := rfl
@[simp] theorem Dev.setQueue_faults (d : Dev) (k : Nat) (x : Queue) : (d.setQueue k x).faults = d.faults := rfl
@[simp] theorem Dev.setQueue_inj (d : Dev) (k : Nat) (x : Queue) : (d.setQueue k x).inj = d.inj := rfl
@[simp] theorem Dev.setQueue_contBi (d : Dev) (k : Nat) (x : Queue) : (d.setQueue k x).contBi = d.contBi := rfl
@[simp] theorem Dev.setQueue_counts (d : Dev) (k : Nat) (x : Queue) : (d.setQueue k x).counts = d.counts := rfl
@[simp] theorem Dev.setQueue_host (d : Dev) (k : Nat) (x : Queue) : (d.setQueue k x).host = d.host := rfl
@[simp] theorem Dev.setQueue_ledger (d : Dev) (k : Nat) (x : Queue) : (d.setQueue k x).ledger = d.ledger := rfl
@[simp] theorem Dev.setQueue_coh (d : Dev) (k : Nat) (x : Queue) : (d.setQueue k x).coh = d.coh := rfl
@[simp] theorem Dev.setQueue_stage (d : Dev) (k : Nat) (x : Queue) : (d.setQueue k x).stage = d.stage := rfl
@[simp] theorem Dev.setQueue_power (d : Dev) (k : Nat) (x : Queue) : (d.setQueue k x).power = d.power := rfl
@[simp] theorem Dev.setQueue_pps (d : Dev) (k : Nat) (x : Queue) : (d.setQueue k x).pps = d.pps := rfl
@[simp] theorem Dev.setQueue_sec (d : Dev) (k : Nat) (x : Queue) : (d.setQueue k x).sec = d.sec := rfl
@[simp] theorem Dev.setQueue_mgmt (d : Dev) (k : Nat) (x : Queue) : (d.setQueue k x).mgmt = d.mgmt := rfl
@[simp] theorem Dev.setQueue_ports (d : Dev) (k : Nat) (x : Queue) : (d.setQueue k x).ports = d.ports := rfl
@[simp] theorem Dev.setQueue_seif (d : Dev) (k : Nat) (x : Queue) : (d.setQueue k x).seif = d.seif := rfl
@[simp] theorem Dev.setQueue_recalBase (d : Dev) (k : Nat) (x : Queue) : (d.setQueue k x).recalBase = d.recalBase := rfl

/-! ## setInst -/

@[simp] theorem Dev.setInst_fresh (d : Dev) (k : Nat) (x : Inst) : (d.setInst k x).fresh = d.fresh := rfl
@[simp] theorem Dev.setInst_nextId (d : Dev) (k : Nat) (x : Inst) : (d.setInst k x).nextId = d.nextId := rfl
@[simp] theorem Dev.setInst_flash (d : Dev) (k : Nat) (x : Inst) : (d.setInst k x).flash = d.flash := rfl
@[simp] theorem Dev.setInst_start (d : Dev) (k : Nat) (x : Inst) : (d.setInst k x).start = d.start := rfl
@[simp] theorem Dev.setInst_conf (d : Dev) (k : Nat) (x : Inst) : (d.setInst k x).conf = d.conf := rfl
@[simp] theorem Dev.setInst_time (d : Dev) (k : Nat) (x : Inst) : (d.setInst k x).time = d.time := rfl
@[simp] theorem Dev.setInst_parts (d : Dev) (k : Nat) (x : Inst) : (d.setInst k x).parts = d.parts := rfl
@[simp] theorem Dev.setInst_queues (d : Dev) (k : Nat) (x : Inst) : (d.setInst k x).queues = d.queues := rfl
@[simp] theorem Dev.setInst_tasks (d : Dev) (k : Nat) (x : Inst) : (d.setInst k x).tasks = d.tasks := rfl
@[simp] theorem Dev.setInst_runs (d : Dev) (k : Nat) (x : Inst) : (d.setInst k x).runs = d.runs := rfl
@[simp] theorem Dev.setInst_engOuts (d : Dev) (k : Nat) (x : Inst) : (d.setInst k x).engOuts = d.engOuts := rfl
@[simp] theorem Dev.setInst_engines (d : Dev) (k : Nat) (x : Inst) : (d.setInst k x).engines = d.engines := rfl
@[simp] theorem Dev.setInst_cores (d : Dev) (k : Nat) (x : Inst) : (d.setInst k x).cores = d.cores := rfl
@[simp] theorem Dev.setInst_groups (d : Dev) (k : Nat) (x : Inst) : (d.setInst k x).groups = d.groups := rfl
@[simp] theorem Dev.setInst_munits (d : Dev) (k : Nat) (x : Inst) : (d.setInst k x).munits = d.munits := rfl
@[simp] theorem Dev.setInst_slices (d : Dev) (k : Nat) (x : Inst) : (d.setInst k x).slices = d.slices := rfl
@[simp] theorem Dev.setInst_chans (d : Dev) (k : Nat) (x : Inst) : (d.setInst k x).chans = d.chans := rfl
@[simp] theorem Dev.setInst_mem (d : Dev) (k : Nat) (x : Inst) : (d.setInst k x).mem = d.mem := rfl
@[simp] theorem Dev.setInst_net (d : Dev) (k : Nat) (x : Inst) : (d.setInst k x).net = d.net := rfl
@[simp] theorem Dev.setInst_toHost (d : Dev) (k : Nat) (x : Inst) : (d.setInst k x).toHost = d.toHost := rfl
@[simp] theorem Dev.setInst_mbox (d : Dev) (k : Nat) (x : Inst) : (d.setInst k x).mbox = d.mbox := rfl
@[simp] theorem Dev.setInst_rings (d : Dev) (k : Nat) (x : Inst) : (d.setInst k x).rings = d.rings := rfl
@[simp] theorem Dev.setInst_xlate (d : Dev) (k : Nat) (x : Inst) : (d.setInst k x).xlate = d.xlate := rfl
@[simp] theorem Dev.setInst_faults (d : Dev) (k : Nat) (x : Inst) : (d.setInst k x).faults = d.faults := rfl
@[simp] theorem Dev.setInst_inj (d : Dev) (k : Nat) (x : Inst) : (d.setInst k x).inj = d.inj := rfl
@[simp] theorem Dev.setInst_contBi (d : Dev) (k : Nat) (x : Inst) : (d.setInst k x).contBi = d.contBi := rfl
@[simp] theorem Dev.setInst_counts (d : Dev) (k : Nat) (x : Inst) : (d.setInst k x).counts = d.counts := rfl
@[simp] theorem Dev.setInst_host (d : Dev) (k : Nat) (x : Inst) : (d.setInst k x).host = d.host := rfl
@[simp] theorem Dev.setInst_ledger (d : Dev) (k : Nat) (x : Inst) : (d.setInst k x).ledger = d.ledger := rfl
@[simp] theorem Dev.setInst_coh (d : Dev) (k : Nat) (x : Inst) : (d.setInst k x).coh = d.coh := rfl
@[simp] theorem Dev.setInst_stage (d : Dev) (k : Nat) (x : Inst) : (d.setInst k x).stage = d.stage := rfl
@[simp] theorem Dev.setInst_power (d : Dev) (k : Nat) (x : Inst) : (d.setInst k x).power = d.power := rfl
@[simp] theorem Dev.setInst_pps (d : Dev) (k : Nat) (x : Inst) : (d.setInst k x).pps = d.pps := rfl
@[simp] theorem Dev.setInst_sec (d : Dev) (k : Nat) (x : Inst) : (d.setInst k x).sec = d.sec := rfl
@[simp] theorem Dev.setInst_mgmt (d : Dev) (k : Nat) (x : Inst) : (d.setInst k x).mgmt = d.mgmt := rfl
@[simp] theorem Dev.setInst_ports (d : Dev) (k : Nat) (x : Inst) : (d.setInst k x).ports = d.ports := rfl
@[simp] theorem Dev.setInst_seif (d : Dev) (k : Nat) (x : Inst) : (d.setInst k x).seif = d.seif := rfl
@[simp] theorem Dev.setInst_recalBase (d : Dev) (k : Nat) (x : Inst) : (d.setInst k x).recalBase = d.recalBase := rfl

/-! ## setPart -/

@[simp] theorem Dev.setPart_fresh (d : Dev) (k : Nat) (x : Part) : (d.setPart k x).fresh = d.fresh := rfl
@[simp] theorem Dev.setPart_nextId (d : Dev) (k : Nat) (x : Part) : (d.setPart k x).nextId = d.nextId := rfl
@[simp] theorem Dev.setPart_flash (d : Dev) (k : Nat) (x : Part) : (d.setPart k x).flash = d.flash := rfl
@[simp] theorem Dev.setPart_start (d : Dev) (k : Nat) (x : Part) : (d.setPart k x).start = d.start := rfl
@[simp] theorem Dev.setPart_conf (d : Dev) (k : Nat) (x : Part) : (d.setPart k x).conf = d.conf := rfl
@[simp] theorem Dev.setPart_time (d : Dev) (k : Nat) (x : Part) : (d.setPart k x).time = d.time := rfl
@[simp] theorem Dev.setPart_insts (d : Dev) (k : Nat) (x : Part) : (d.setPart k x).insts = d.insts := rfl
@[simp] theorem Dev.setPart_queues (d : Dev) (k : Nat) (x : Part) : (d.setPart k x).queues = d.queues := rfl
@[simp] theorem Dev.setPart_tasks (d : Dev) (k : Nat) (x : Part) : (d.setPart k x).tasks = d.tasks := rfl
@[simp] theorem Dev.setPart_runs (d : Dev) (k : Nat) (x : Part) : (d.setPart k x).runs = d.runs := rfl
@[simp] theorem Dev.setPart_engOuts (d : Dev) (k : Nat) (x : Part) : (d.setPart k x).engOuts = d.engOuts := rfl
@[simp] theorem Dev.setPart_engines (d : Dev) (k : Nat) (x : Part) : (d.setPart k x).engines = d.engines := rfl
@[simp] theorem Dev.setPart_cores (d : Dev) (k : Nat) (x : Part) : (d.setPart k x).cores = d.cores := rfl
@[simp] theorem Dev.setPart_groups (d : Dev) (k : Nat) (x : Part) : (d.setPart k x).groups = d.groups := rfl
@[simp] theorem Dev.setPart_munits (d : Dev) (k : Nat) (x : Part) : (d.setPart k x).munits = d.munits := rfl
@[simp] theorem Dev.setPart_slices (d : Dev) (k : Nat) (x : Part) : (d.setPart k x).slices = d.slices := rfl
@[simp] theorem Dev.setPart_chans (d : Dev) (k : Nat) (x : Part) : (d.setPart k x).chans = d.chans := rfl
@[simp] theorem Dev.setPart_mem (d : Dev) (k : Nat) (x : Part) : (d.setPart k x).mem = d.mem := rfl
@[simp] theorem Dev.setPart_net (d : Dev) (k : Nat) (x : Part) : (d.setPart k x).net = d.net := rfl
@[simp] theorem Dev.setPart_toHost (d : Dev) (k : Nat) (x : Part) : (d.setPart k x).toHost = d.toHost := rfl
@[simp] theorem Dev.setPart_mbox (d : Dev) (k : Nat) (x : Part) : (d.setPart k x).mbox = d.mbox := rfl
@[simp] theorem Dev.setPart_rings (d : Dev) (k : Nat) (x : Part) : (d.setPart k x).rings = d.rings := rfl
@[simp] theorem Dev.setPart_xlate (d : Dev) (k : Nat) (x : Part) : (d.setPart k x).xlate = d.xlate := rfl
@[simp] theorem Dev.setPart_faults (d : Dev) (k : Nat) (x : Part) : (d.setPart k x).faults = d.faults := rfl
@[simp] theorem Dev.setPart_inj (d : Dev) (k : Nat) (x : Part) : (d.setPart k x).inj = d.inj := rfl
@[simp] theorem Dev.setPart_contBi (d : Dev) (k : Nat) (x : Part) : (d.setPart k x).contBi = d.contBi := rfl
@[simp] theorem Dev.setPart_counts (d : Dev) (k : Nat) (x : Part) : (d.setPart k x).counts = d.counts := rfl
@[simp] theorem Dev.setPart_host (d : Dev) (k : Nat) (x : Part) : (d.setPart k x).host = d.host := rfl
@[simp] theorem Dev.setPart_ledger (d : Dev) (k : Nat) (x : Part) : (d.setPart k x).ledger = d.ledger := rfl
@[simp] theorem Dev.setPart_coh (d : Dev) (k : Nat) (x : Part) : (d.setPart k x).coh = d.coh := rfl
@[simp] theorem Dev.setPart_stage (d : Dev) (k : Nat) (x : Part) : (d.setPart k x).stage = d.stage := rfl
@[simp] theorem Dev.setPart_power (d : Dev) (k : Nat) (x : Part) : (d.setPart k x).power = d.power := rfl
@[simp] theorem Dev.setPart_pps (d : Dev) (k : Nat) (x : Part) : (d.setPart k x).pps = d.pps := rfl
@[simp] theorem Dev.setPart_sec (d : Dev) (k : Nat) (x : Part) : (d.setPart k x).sec = d.sec := rfl
@[simp] theorem Dev.setPart_mgmt (d : Dev) (k : Nat) (x : Part) : (d.setPart k x).mgmt = d.mgmt := rfl
@[simp] theorem Dev.setPart_ports (d : Dev) (k : Nat) (x : Part) : (d.setPart k x).ports = d.ports := rfl
@[simp] theorem Dev.setPart_seif (d : Dev) (k : Nat) (x : Part) : (d.setPart k x).seif = d.seif := rfl
@[simp] theorem Dev.setPart_recalBase (d : Dev) (k : Nat) (x : Part) : (d.setPart k x).recalBase = d.recalBase := rfl

/-! ## setTask -/

@[simp] theorem Dev.setTask_fresh (d : Dev) (x : Task) : (d.setTask x).fresh = d.fresh := rfl
@[simp] theorem Dev.setTask_nextId (d : Dev) (x : Task) : (d.setTask x).nextId = d.nextId := rfl
@[simp] theorem Dev.setTask_flash (d : Dev) (x : Task) : (d.setTask x).flash = d.flash := rfl
@[simp] theorem Dev.setTask_start (d : Dev) (x : Task) : (d.setTask x).start = d.start := rfl
@[simp] theorem Dev.setTask_conf (d : Dev) (x : Task) : (d.setTask x).conf = d.conf := rfl
@[simp] theorem Dev.setTask_time (d : Dev) (x : Task) : (d.setTask x).time = d.time := rfl
@[simp] theorem Dev.setTask_parts (d : Dev) (x : Task) : (d.setTask x).parts = d.parts := rfl
@[simp] theorem Dev.setTask_insts (d : Dev) (x : Task) : (d.setTask x).insts = d.insts := rfl
@[simp] theorem Dev.setTask_queues (d : Dev) (x : Task) : (d.setTask x).queues = d.queues := rfl
@[simp] theorem Dev.setTask_runs (d : Dev) (x : Task) : (d.setTask x).runs = d.runs := rfl
@[simp] theorem Dev.setTask_engOuts (d : Dev) (x : Task) : (d.setTask x).engOuts = d.engOuts := rfl
@[simp] theorem Dev.setTask_engines (d : Dev) (x : Task) : (d.setTask x).engines = d.engines := rfl
@[simp] theorem Dev.setTask_cores (d : Dev) (x : Task) : (d.setTask x).cores = d.cores := rfl
@[simp] theorem Dev.setTask_groups (d : Dev) (x : Task) : (d.setTask x).groups = d.groups := rfl
@[simp] theorem Dev.setTask_munits (d : Dev) (x : Task) : (d.setTask x).munits = d.munits := rfl
@[simp] theorem Dev.setTask_slices (d : Dev) (x : Task) : (d.setTask x).slices = d.slices := rfl
@[simp] theorem Dev.setTask_chans (d : Dev) (x : Task) : (d.setTask x).chans = d.chans := rfl
@[simp] theorem Dev.setTask_mem (d : Dev) (x : Task) : (d.setTask x).mem = d.mem := rfl
@[simp] theorem Dev.setTask_net (d : Dev) (x : Task) : (d.setTask x).net = d.net := rfl
@[simp] theorem Dev.setTask_toHost (d : Dev) (x : Task) : (d.setTask x).toHost = d.toHost := rfl
@[simp] theorem Dev.setTask_mbox (d : Dev) (x : Task) : (d.setTask x).mbox = d.mbox := rfl
@[simp] theorem Dev.setTask_rings (d : Dev) (x : Task) : (d.setTask x).rings = d.rings := rfl
@[simp] theorem Dev.setTask_xlate (d : Dev) (x : Task) : (d.setTask x).xlate = d.xlate := rfl
@[simp] theorem Dev.setTask_faults (d : Dev) (x : Task) : (d.setTask x).faults = d.faults := rfl
@[simp] theorem Dev.setTask_inj (d : Dev) (x : Task) : (d.setTask x).inj = d.inj := rfl
@[simp] theorem Dev.setTask_contBi (d : Dev) (x : Task) : (d.setTask x).contBi = d.contBi := rfl
@[simp] theorem Dev.setTask_counts (d : Dev) (x : Task) : (d.setTask x).counts = d.counts := rfl
@[simp] theorem Dev.setTask_host (d : Dev) (x : Task) : (d.setTask x).host = d.host := rfl
@[simp] theorem Dev.setTask_ledger (d : Dev) (x : Task) : (d.setTask x).ledger = d.ledger := rfl
@[simp] theorem Dev.setTask_coh (d : Dev) (x : Task) : (d.setTask x).coh = d.coh := rfl
@[simp] theorem Dev.setTask_stage (d : Dev) (x : Task) : (d.setTask x).stage = d.stage := rfl
@[simp] theorem Dev.setTask_power (d : Dev) (x : Task) : (d.setTask x).power = d.power := rfl
@[simp] theorem Dev.setTask_pps (d : Dev) (x : Task) : (d.setTask x).pps = d.pps := rfl
@[simp] theorem Dev.setTask_sec (d : Dev) (x : Task) : (d.setTask x).sec = d.sec := rfl
@[simp] theorem Dev.setTask_mgmt (d : Dev) (x : Task) : (d.setTask x).mgmt = d.mgmt := rfl
@[simp] theorem Dev.setTask_ports (d : Dev) (x : Task) : (d.setTask x).ports = d.ports := rfl
@[simp] theorem Dev.setTask_seif (d : Dev) (x : Task) : (d.setTask x).seif = d.seif := rfl
@[simp] theorem Dev.setTask_recalBase (d : Dev) (x : Task) : (d.setTask x).recalBase = d.recalBase := rfl

/-! ## delTask -/

@[simp] theorem Dev.delTask_fresh (d : Dev) (q i : Nat) : (d.delTask q i).fresh = d.fresh := rfl
@[simp] theorem Dev.delTask_nextId (d : Dev) (q i : Nat) : (d.delTask q i).nextId = d.nextId := rfl
@[simp] theorem Dev.delTask_flash (d : Dev) (q i : Nat) : (d.delTask q i).flash = d.flash := rfl
@[simp] theorem Dev.delTask_start (d : Dev) (q i : Nat) : (d.delTask q i).start = d.start := rfl
@[simp] theorem Dev.delTask_conf (d : Dev) (q i : Nat) : (d.delTask q i).conf = d.conf := rfl
@[simp] theorem Dev.delTask_time (d : Dev) (q i : Nat) : (d.delTask q i).time = d.time := rfl
@[simp] theorem Dev.delTask_parts (d : Dev) (q i : Nat) : (d.delTask q i).parts = d.parts := rfl
@[simp] theorem Dev.delTask_insts (d : Dev) (q i : Nat) : (d.delTask q i).insts = d.insts := rfl
@[simp] theorem Dev.delTask_queues (d : Dev) (q i : Nat) : (d.delTask q i).queues = d.queues := rfl
@[simp] theorem Dev.delTask_runs (d : Dev) (q i : Nat) : (d.delTask q i).runs = d.runs := rfl
@[simp] theorem Dev.delTask_engOuts (d : Dev) (q i : Nat) : (d.delTask q i).engOuts = d.engOuts := rfl
@[simp] theorem Dev.delTask_engines (d : Dev) (q i : Nat) : (d.delTask q i).engines = d.engines := rfl
@[simp] theorem Dev.delTask_cores (d : Dev) (q i : Nat) : (d.delTask q i).cores = d.cores := rfl
@[simp] theorem Dev.delTask_groups (d : Dev) (q i : Nat) : (d.delTask q i).groups = d.groups := rfl
@[simp] theorem Dev.delTask_munits (d : Dev) (q i : Nat) : (d.delTask q i).munits = d.munits := rfl
@[simp] theorem Dev.delTask_slices (d : Dev) (q i : Nat) : (d.delTask q i).slices = d.slices := rfl
@[simp] theorem Dev.delTask_chans (d : Dev) (q i : Nat) : (d.delTask q i).chans = d.chans := rfl
@[simp] theorem Dev.delTask_mem (d : Dev) (q i : Nat) : (d.delTask q i).mem = d.mem := rfl
@[simp] theorem Dev.delTask_net (d : Dev) (q i : Nat) : (d.delTask q i).net = d.net := rfl
@[simp] theorem Dev.delTask_toHost (d : Dev) (q i : Nat) : (d.delTask q i).toHost = d.toHost := rfl
@[simp] theorem Dev.delTask_mbox (d : Dev) (q i : Nat) : (d.delTask q i).mbox = d.mbox := rfl
@[simp] theorem Dev.delTask_rings (d : Dev) (q i : Nat) : (d.delTask q i).rings = d.rings := rfl
@[simp] theorem Dev.delTask_xlate (d : Dev) (q i : Nat) : (d.delTask q i).xlate = d.xlate := rfl
@[simp] theorem Dev.delTask_faults (d : Dev) (q i : Nat) : (d.delTask q i).faults = d.faults := rfl
@[simp] theorem Dev.delTask_inj (d : Dev) (q i : Nat) : (d.delTask q i).inj = d.inj := rfl
@[simp] theorem Dev.delTask_contBi (d : Dev) (q i : Nat) : (d.delTask q i).contBi = d.contBi := rfl
@[simp] theorem Dev.delTask_counts (d : Dev) (q i : Nat) : (d.delTask q i).counts = d.counts := rfl
@[simp] theorem Dev.delTask_host (d : Dev) (q i : Nat) : (d.delTask q i).host = d.host := rfl
@[simp] theorem Dev.delTask_ledger (d : Dev) (q i : Nat) : (d.delTask q i).ledger = d.ledger := rfl
@[simp] theorem Dev.delTask_coh (d : Dev) (q i : Nat) : (d.delTask q i).coh = d.coh := rfl
@[simp] theorem Dev.delTask_stage (d : Dev) (q i : Nat) : (d.delTask q i).stage = d.stage := rfl
@[simp] theorem Dev.delTask_power (d : Dev) (q i : Nat) : (d.delTask q i).power = d.power := rfl
@[simp] theorem Dev.delTask_pps (d : Dev) (q i : Nat) : (d.delTask q i).pps = d.pps := rfl
@[simp] theorem Dev.delTask_sec (d : Dev) (q i : Nat) : (d.delTask q i).sec = d.sec := rfl
@[simp] theorem Dev.delTask_mgmt (d : Dev) (q i : Nat) : (d.delTask q i).mgmt = d.mgmt := rfl
@[simp] theorem Dev.delTask_ports (d : Dev) (q i : Nat) : (d.delTask q i).ports = d.ports := rfl
@[simp] theorem Dev.delTask_seif (d : Dev) (q i : Nat) : (d.delTask q i).seif = d.seif := rfl
@[simp] theorem Dev.delTask_recalBase (d : Dev) (q i : Nat) : (d.delTask q i).recalBase = d.recalBase := rfl

/-! ## setRun -/

@[simp] theorem Dev.setRun_fresh (d : Dev) (x : Run) : (d.setRun x).fresh = d.fresh := rfl
@[simp] theorem Dev.setRun_nextId (d : Dev) (x : Run) : (d.setRun x).nextId = d.nextId := rfl
@[simp] theorem Dev.setRun_flash (d : Dev) (x : Run) : (d.setRun x).flash = d.flash := rfl
@[simp] theorem Dev.setRun_start (d : Dev) (x : Run) : (d.setRun x).start = d.start := rfl
@[simp] theorem Dev.setRun_conf (d : Dev) (x : Run) : (d.setRun x).conf = d.conf := rfl
@[simp] theorem Dev.setRun_time (d : Dev) (x : Run) : (d.setRun x).time = d.time := rfl
@[simp] theorem Dev.setRun_parts (d : Dev) (x : Run) : (d.setRun x).parts = d.parts := rfl
@[simp] theorem Dev.setRun_insts (d : Dev) (x : Run) : (d.setRun x).insts = d.insts := rfl
@[simp] theorem Dev.setRun_queues (d : Dev) (x : Run) : (d.setRun x).queues = d.queues := rfl
@[simp] theorem Dev.setRun_tasks (d : Dev) (x : Run) : (d.setRun x).tasks = d.tasks := rfl
@[simp] theorem Dev.setRun_engOuts (d : Dev) (x : Run) : (d.setRun x).engOuts = d.engOuts := rfl
@[simp] theorem Dev.setRun_engines (d : Dev) (x : Run) : (d.setRun x).engines = d.engines := rfl
@[simp] theorem Dev.setRun_cores (d : Dev) (x : Run) : (d.setRun x).cores = d.cores := rfl
@[simp] theorem Dev.setRun_groups (d : Dev) (x : Run) : (d.setRun x).groups = d.groups := rfl
@[simp] theorem Dev.setRun_munits (d : Dev) (x : Run) : (d.setRun x).munits = d.munits := rfl
@[simp] theorem Dev.setRun_slices (d : Dev) (x : Run) : (d.setRun x).slices = d.slices := rfl
@[simp] theorem Dev.setRun_chans (d : Dev) (x : Run) : (d.setRun x).chans = d.chans := rfl
@[simp] theorem Dev.setRun_mem (d : Dev) (x : Run) : (d.setRun x).mem = d.mem := rfl
@[simp] theorem Dev.setRun_net (d : Dev) (x : Run) : (d.setRun x).net = d.net := rfl
@[simp] theorem Dev.setRun_toHost (d : Dev) (x : Run) : (d.setRun x).toHost = d.toHost := rfl
@[simp] theorem Dev.setRun_mbox (d : Dev) (x : Run) : (d.setRun x).mbox = d.mbox := rfl
@[simp] theorem Dev.setRun_rings (d : Dev) (x : Run) : (d.setRun x).rings = d.rings := rfl
@[simp] theorem Dev.setRun_xlate (d : Dev) (x : Run) : (d.setRun x).xlate = d.xlate := rfl
@[simp] theorem Dev.setRun_faults (d : Dev) (x : Run) : (d.setRun x).faults = d.faults := rfl
@[simp] theorem Dev.setRun_inj (d : Dev) (x : Run) : (d.setRun x).inj = d.inj := rfl
@[simp] theorem Dev.setRun_contBi (d : Dev) (x : Run) : (d.setRun x).contBi = d.contBi := rfl
@[simp] theorem Dev.setRun_counts (d : Dev) (x : Run) : (d.setRun x).counts = d.counts := rfl
@[simp] theorem Dev.setRun_host (d : Dev) (x : Run) : (d.setRun x).host = d.host := rfl
@[simp] theorem Dev.setRun_ledger (d : Dev) (x : Run) : (d.setRun x).ledger = d.ledger := rfl
@[simp] theorem Dev.setRun_coh (d : Dev) (x : Run) : (d.setRun x).coh = d.coh := rfl
@[simp] theorem Dev.setRun_stage (d : Dev) (x : Run) : (d.setRun x).stage = d.stage := rfl
@[simp] theorem Dev.setRun_power (d : Dev) (x : Run) : (d.setRun x).power = d.power := rfl
@[simp] theorem Dev.setRun_pps (d : Dev) (x : Run) : (d.setRun x).pps = d.pps := rfl
@[simp] theorem Dev.setRun_sec (d : Dev) (x : Run) : (d.setRun x).sec = d.sec := rfl
@[simp] theorem Dev.setRun_mgmt (d : Dev) (x : Run) : (d.setRun x).mgmt = d.mgmt := rfl
@[simp] theorem Dev.setRun_ports (d : Dev) (x : Run) : (d.setRun x).ports = d.ports := rfl
@[simp] theorem Dev.setRun_seif (d : Dev) (x : Run) : (d.setRun x).seif = d.seif := rfl
@[simp] theorem Dev.setRun_recalBase (d : Dev) (x : Run) : (d.setRun x).recalBase = d.recalBase := rfl

/-! ## delRun -/

@[simp] theorem Dev.delRun_fresh (d : Dev) (q i : Nat) : (d.delRun q i).fresh = d.fresh := rfl
@[simp] theorem Dev.delRun_nextId (d : Dev) (q i : Nat) : (d.delRun q i).nextId = d.nextId := rfl
@[simp] theorem Dev.delRun_flash (d : Dev) (q i : Nat) : (d.delRun q i).flash = d.flash := rfl
@[simp] theorem Dev.delRun_start (d : Dev) (q i : Nat) : (d.delRun q i).start = d.start := rfl
@[simp] theorem Dev.delRun_conf (d : Dev) (q i : Nat) : (d.delRun q i).conf = d.conf := rfl
@[simp] theorem Dev.delRun_time (d : Dev) (q i : Nat) : (d.delRun q i).time = d.time := rfl
@[simp] theorem Dev.delRun_parts (d : Dev) (q i : Nat) : (d.delRun q i).parts = d.parts := rfl
@[simp] theorem Dev.delRun_insts (d : Dev) (q i : Nat) : (d.delRun q i).insts = d.insts := rfl
@[simp] theorem Dev.delRun_queues (d : Dev) (q i : Nat) : (d.delRun q i).queues = d.queues := rfl
@[simp] theorem Dev.delRun_tasks (d : Dev) (q i : Nat) : (d.delRun q i).tasks = d.tasks := rfl
@[simp] theorem Dev.delRun_engOuts (d : Dev) (q i : Nat) : (d.delRun q i).engOuts = d.engOuts := rfl
@[simp] theorem Dev.delRun_engines (d : Dev) (q i : Nat) : (d.delRun q i).engines = d.engines := rfl
@[simp] theorem Dev.delRun_cores (d : Dev) (q i : Nat) : (d.delRun q i).cores = d.cores := rfl
@[simp] theorem Dev.delRun_groups (d : Dev) (q i : Nat) : (d.delRun q i).groups = d.groups := rfl
@[simp] theorem Dev.delRun_munits (d : Dev) (q i : Nat) : (d.delRun q i).munits = d.munits := rfl
@[simp] theorem Dev.delRun_slices (d : Dev) (q i : Nat) : (d.delRun q i).slices = d.slices := rfl
@[simp] theorem Dev.delRun_chans (d : Dev) (q i : Nat) : (d.delRun q i).chans = d.chans := rfl
@[simp] theorem Dev.delRun_mem (d : Dev) (q i : Nat) : (d.delRun q i).mem = d.mem := rfl
@[simp] theorem Dev.delRun_net (d : Dev) (q i : Nat) : (d.delRun q i).net = d.net := rfl
@[simp] theorem Dev.delRun_toHost (d : Dev) (q i : Nat) : (d.delRun q i).toHost = d.toHost := rfl
@[simp] theorem Dev.delRun_mbox (d : Dev) (q i : Nat) : (d.delRun q i).mbox = d.mbox := rfl
@[simp] theorem Dev.delRun_rings (d : Dev) (q i : Nat) : (d.delRun q i).rings = d.rings := rfl
@[simp] theorem Dev.delRun_xlate (d : Dev) (q i : Nat) : (d.delRun q i).xlate = d.xlate := rfl
@[simp] theorem Dev.delRun_faults (d : Dev) (q i : Nat) : (d.delRun q i).faults = d.faults := rfl
@[simp] theorem Dev.delRun_inj (d : Dev) (q i : Nat) : (d.delRun q i).inj = d.inj := rfl
@[simp] theorem Dev.delRun_contBi (d : Dev) (q i : Nat) : (d.delRun q i).contBi = d.contBi := rfl
@[simp] theorem Dev.delRun_counts (d : Dev) (q i : Nat) : (d.delRun q i).counts = d.counts := rfl
@[simp] theorem Dev.delRun_host (d : Dev) (q i : Nat) : (d.delRun q i).host = d.host := rfl
@[simp] theorem Dev.delRun_ledger (d : Dev) (q i : Nat) : (d.delRun q i).ledger = d.ledger := rfl
@[simp] theorem Dev.delRun_coh (d : Dev) (q i : Nat) : (d.delRun q i).coh = d.coh := rfl
@[simp] theorem Dev.delRun_stage (d : Dev) (q i : Nat) : (d.delRun q i).stage = d.stage := rfl
@[simp] theorem Dev.delRun_power (d : Dev) (q i : Nat) : (d.delRun q i).power = d.power := rfl
@[simp] theorem Dev.delRun_pps (d : Dev) (q i : Nat) : (d.delRun q i).pps = d.pps := rfl
@[simp] theorem Dev.delRun_sec (d : Dev) (q i : Nat) : (d.delRun q i).sec = d.sec := rfl
@[simp] theorem Dev.delRun_mgmt (d : Dev) (q i : Nat) : (d.delRun q i).mgmt = d.mgmt := rfl
@[simp] theorem Dev.delRun_ports (d : Dev) (q i : Nat) : (d.delRun q i).ports = d.ports := rfl
@[simp] theorem Dev.delRun_seif (d : Dev) (q i : Nat) : (d.delRun q i).seif = d.seif := rfl
@[simp] theorem Dev.delRun_recalBase (d : Dev) (q i : Nat) : (d.delRun q i).recalBase = d.recalBase := rfl

/-! ## setMailbox -/

@[simp] theorem Dev.setMailbox_fresh (d : Dev) (k : Nat) (x : Mailbox) : (d.setMailbox k x).fresh = d.fresh := rfl
@[simp] theorem Dev.setMailbox_nextId (d : Dev) (k : Nat) (x : Mailbox) : (d.setMailbox k x).nextId = d.nextId := rfl
@[simp] theorem Dev.setMailbox_flash (d : Dev) (k : Nat) (x : Mailbox) : (d.setMailbox k x).flash = d.flash := rfl
@[simp] theorem Dev.setMailbox_start (d : Dev) (k : Nat) (x : Mailbox) : (d.setMailbox k x).start = d.start := rfl
@[simp] theorem Dev.setMailbox_conf (d : Dev) (k : Nat) (x : Mailbox) : (d.setMailbox k x).conf = d.conf := rfl
@[simp] theorem Dev.setMailbox_time (d : Dev) (k : Nat) (x : Mailbox) : (d.setMailbox k x).time = d.time := rfl
@[simp] theorem Dev.setMailbox_parts (d : Dev) (k : Nat) (x : Mailbox) : (d.setMailbox k x).parts = d.parts := rfl
@[simp] theorem Dev.setMailbox_insts (d : Dev) (k : Nat) (x : Mailbox) : (d.setMailbox k x).insts = d.insts := rfl
@[simp] theorem Dev.setMailbox_queues (d : Dev) (k : Nat) (x : Mailbox) : (d.setMailbox k x).queues = d.queues := rfl
@[simp] theorem Dev.setMailbox_tasks (d : Dev) (k : Nat) (x : Mailbox) : (d.setMailbox k x).tasks = d.tasks := rfl
@[simp] theorem Dev.setMailbox_runs (d : Dev) (k : Nat) (x : Mailbox) : (d.setMailbox k x).runs = d.runs := rfl
@[simp] theorem Dev.setMailbox_engOuts (d : Dev) (k : Nat) (x : Mailbox) : (d.setMailbox k x).engOuts = d.engOuts := rfl
@[simp] theorem Dev.setMailbox_engines (d : Dev) (k : Nat) (x : Mailbox) : (d.setMailbox k x).engines = d.engines := rfl
@[simp] theorem Dev.setMailbox_cores (d : Dev) (k : Nat) (x : Mailbox) : (d.setMailbox k x).cores = d.cores := rfl
@[simp] theorem Dev.setMailbox_groups (d : Dev) (k : Nat) (x : Mailbox) : (d.setMailbox k x).groups = d.groups := rfl
@[simp] theorem Dev.setMailbox_munits (d : Dev) (k : Nat) (x : Mailbox) : (d.setMailbox k x).munits = d.munits := rfl
@[simp] theorem Dev.setMailbox_slices (d : Dev) (k : Nat) (x : Mailbox) : (d.setMailbox k x).slices = d.slices := rfl
@[simp] theorem Dev.setMailbox_chans (d : Dev) (k : Nat) (x : Mailbox) : (d.setMailbox k x).chans = d.chans := rfl
@[simp] theorem Dev.setMailbox_mem (d : Dev) (k : Nat) (x : Mailbox) : (d.setMailbox k x).mem = d.mem := rfl
@[simp] theorem Dev.setMailbox_net (d : Dev) (k : Nat) (x : Mailbox) : (d.setMailbox k x).net = d.net := rfl
@[simp] theorem Dev.setMailbox_toHost (d : Dev) (k : Nat) (x : Mailbox) : (d.setMailbox k x).toHost = d.toHost := rfl
@[simp] theorem Dev.setMailbox_rings (d : Dev) (k : Nat) (x : Mailbox) : (d.setMailbox k x).rings = d.rings := rfl
@[simp] theorem Dev.setMailbox_xlate (d : Dev) (k : Nat) (x : Mailbox) : (d.setMailbox k x).xlate = d.xlate := rfl
@[simp] theorem Dev.setMailbox_faults (d : Dev) (k : Nat) (x : Mailbox) : (d.setMailbox k x).faults = d.faults := rfl
@[simp] theorem Dev.setMailbox_inj (d : Dev) (k : Nat) (x : Mailbox) : (d.setMailbox k x).inj = d.inj := rfl
@[simp] theorem Dev.setMailbox_contBi (d : Dev) (k : Nat) (x : Mailbox) : (d.setMailbox k x).contBi = d.contBi := rfl
@[simp] theorem Dev.setMailbox_counts (d : Dev) (k : Nat) (x : Mailbox) : (d.setMailbox k x).counts = d.counts := rfl
@[simp] theorem Dev.setMailbox_host (d : Dev) (k : Nat) (x : Mailbox) : (d.setMailbox k x).host = d.host := rfl
@[simp] theorem Dev.setMailbox_ledger (d : Dev) (k : Nat) (x : Mailbox) : (d.setMailbox k x).ledger = d.ledger := rfl
@[simp] theorem Dev.setMailbox_coh (d : Dev) (k : Nat) (x : Mailbox) : (d.setMailbox k x).coh = d.coh := rfl
@[simp] theorem Dev.setMailbox_stage (d : Dev) (k : Nat) (x : Mailbox) : (d.setMailbox k x).stage = d.stage := rfl
@[simp] theorem Dev.setMailbox_power (d : Dev) (k : Nat) (x : Mailbox) : (d.setMailbox k x).power = d.power := rfl
@[simp] theorem Dev.setMailbox_pps (d : Dev) (k : Nat) (x : Mailbox) : (d.setMailbox k x).pps = d.pps := rfl
@[simp] theorem Dev.setMailbox_sec (d : Dev) (k : Nat) (x : Mailbox) : (d.setMailbox k x).sec = d.sec := rfl
@[simp] theorem Dev.setMailbox_mgmt (d : Dev) (k : Nat) (x : Mailbox) : (d.setMailbox k x).mgmt = d.mgmt := rfl
@[simp] theorem Dev.setMailbox_ports (d : Dev) (k : Nat) (x : Mailbox) : (d.setMailbox k x).ports = d.ports := rfl
@[simp] theorem Dev.setMailbox_seif (d : Dev) (k : Nat) (x : Mailbox) : (d.setMailbox k x).seif = d.seif := rfl
@[simp] theorem Dev.setMailbox_recalBase (d : Dev) (k : Nat) (x : Mailbox) : (d.setMailbox k x).recalBase = d.recalBase := rfl

/-! ## Free values and request numbers -/

@[simp] theorem Dev.takeFresh_nextId (d : Dev) : d.takeFresh.2.nextId = d.nextId := rfl
@[simp] theorem Dev.takeFresh_flash (d : Dev) : d.takeFresh.2.flash = d.flash := rfl
@[simp] theorem Dev.takeFresh_start (d : Dev) : d.takeFresh.2.start = d.start := rfl
@[simp] theorem Dev.takeFresh_conf (d : Dev) : d.takeFresh.2.conf = d.conf := rfl
@[simp] theorem Dev.takeFresh_time (d : Dev) : d.takeFresh.2.time = d.time := rfl
@[simp] theorem Dev.takeFresh_parts (d : Dev) : d.takeFresh.2.parts = d.parts := rfl
@[simp] theorem Dev.takeFresh_insts (d : Dev) : d.takeFresh.2.insts = d.insts := rfl
@[simp] theorem Dev.takeFresh_queues (d : Dev) : d.takeFresh.2.queues = d.queues := rfl
@[simp] theorem Dev.takeFresh_tasks (d : Dev) : d.takeFresh.2.tasks = d.tasks := rfl
@[simp] theorem Dev.takeFresh_runs (d : Dev) : d.takeFresh.2.runs = d.runs := rfl
@[simp] theorem Dev.takeFresh_engOuts (d : Dev) : d.takeFresh.2.engOuts = d.engOuts := rfl
@[simp] theorem Dev.takeFresh_engines (d : Dev) : d.takeFresh.2.engines = d.engines := rfl
@[simp] theorem Dev.takeFresh_cores (d : Dev) : d.takeFresh.2.cores = d.cores := rfl
@[simp] theorem Dev.takeFresh_groups (d : Dev) : d.takeFresh.2.groups = d.groups := rfl
@[simp] theorem Dev.takeFresh_munits (d : Dev) : d.takeFresh.2.munits = d.munits := rfl
@[simp] theorem Dev.takeFresh_slices (d : Dev) : d.takeFresh.2.slices = d.slices := rfl
@[simp] theorem Dev.takeFresh_chans (d : Dev) : d.takeFresh.2.chans = d.chans := rfl
@[simp] theorem Dev.takeFresh_mem (d : Dev) : d.takeFresh.2.mem = d.mem := rfl
@[simp] theorem Dev.takeFresh_net (d : Dev) : d.takeFresh.2.net = d.net := rfl
@[simp] theorem Dev.takeFresh_toHost (d : Dev) : d.takeFresh.2.toHost = d.toHost := rfl
@[simp] theorem Dev.takeFresh_mbox (d : Dev) : d.takeFresh.2.mbox = d.mbox := rfl
@[simp] theorem Dev.takeFresh_rings (d : Dev) : d.takeFresh.2.rings = d.rings := rfl
@[simp] theorem Dev.takeFresh_xlate (d : Dev) : d.takeFresh.2.xlate = d.xlate := rfl
@[simp] theorem Dev.takeFresh_faults (d : Dev) : d.takeFresh.2.faults = d.faults := rfl
@[simp] theorem Dev.takeFresh_inj (d : Dev) : d.takeFresh.2.inj = d.inj := rfl
@[simp] theorem Dev.takeFresh_contBi (d : Dev) : d.takeFresh.2.contBi = d.contBi := rfl
@[simp] theorem Dev.takeFresh_counts (d : Dev) : d.takeFresh.2.counts = d.counts := rfl
@[simp] theorem Dev.takeFresh_host (d : Dev) : d.takeFresh.2.host = d.host := rfl
@[simp] theorem Dev.takeFresh_ledger (d : Dev) : d.takeFresh.2.ledger = d.ledger := rfl
@[simp] theorem Dev.takeFresh_coh (d : Dev) : d.takeFresh.2.coh = d.coh := rfl
@[simp] theorem Dev.takeFresh_stage (d : Dev) : d.takeFresh.2.stage = d.stage := rfl
@[simp] theorem Dev.takeFresh_power (d : Dev) : d.takeFresh.2.power = d.power := rfl
@[simp] theorem Dev.takeFresh_pps (d : Dev) : d.takeFresh.2.pps = d.pps := rfl
@[simp] theorem Dev.takeFresh_sec (d : Dev) : d.takeFresh.2.sec = d.sec := rfl
@[simp] theorem Dev.takeFresh_mgmt (d : Dev) : d.takeFresh.2.mgmt = d.mgmt := rfl
@[simp] theorem Dev.takeFresh_ports (d : Dev) : d.takeFresh.2.ports = d.ports := rfl
@[simp] theorem Dev.takeFresh_seif (d : Dev) : d.takeFresh.2.seif = d.seif := rfl
@[simp] theorem Dev.takeFresh_recalBase (d : Dev) : d.takeFresh.2.recalBase = d.recalBase := rfl
@[simp] theorem Dev.takeFresh_fst (d : Dev) : d.takeFresh.1 = d.fresh := rfl
@[simp] theorem Dev.takeFresh_fresh (d : Dev) : d.takeFresh.2.fresh = d.fresh + 1 := rfl

@[simp] theorem Dev.takeId_fresh (d : Dev) : d.takeId.2.fresh = d.fresh := rfl
@[simp] theorem Dev.takeId_flash (d : Dev) : d.takeId.2.flash = d.flash := rfl
@[simp] theorem Dev.takeId_start (d : Dev) : d.takeId.2.start = d.start := rfl
@[simp] theorem Dev.takeId_conf (d : Dev) : d.takeId.2.conf = d.conf := rfl
@[simp] theorem Dev.takeId_time (d : Dev) : d.takeId.2.time = d.time := rfl
@[simp] theorem Dev.takeId_parts (d : Dev) : d.takeId.2.parts = d.parts := rfl
@[simp] theorem Dev.takeId_insts (d : Dev) : d.takeId.2.insts = d.insts := rfl
@[simp] theorem Dev.takeId_queues (d : Dev) : d.takeId.2.queues = d.queues := rfl
@[simp] theorem Dev.takeId_tasks (d : Dev) : d.takeId.2.tasks = d.tasks := rfl
@[simp] theorem Dev.takeId_runs (d : Dev) : d.takeId.2.runs = d.runs := rfl
@[simp] theorem Dev.takeId_engOuts (d : Dev) : d.takeId.2.engOuts = d.engOuts := rfl
@[simp] theorem Dev.takeId_engines (d : Dev) : d.takeId.2.engines = d.engines := rfl
@[simp] theorem Dev.takeId_cores (d : Dev) : d.takeId.2.cores = d.cores := rfl
@[simp] theorem Dev.takeId_groups (d : Dev) : d.takeId.2.groups = d.groups := rfl
@[simp] theorem Dev.takeId_munits (d : Dev) : d.takeId.2.munits = d.munits := rfl
@[simp] theorem Dev.takeId_slices (d : Dev) : d.takeId.2.slices = d.slices := rfl
@[simp] theorem Dev.takeId_chans (d : Dev) : d.takeId.2.chans = d.chans := rfl
@[simp] theorem Dev.takeId_mem (d : Dev) : d.takeId.2.mem = d.mem := rfl
@[simp] theorem Dev.takeId_net (d : Dev) : d.takeId.2.net = d.net := rfl
@[simp] theorem Dev.takeId_toHost (d : Dev) : d.takeId.2.toHost = d.toHost := rfl
@[simp] theorem Dev.takeId_mbox (d : Dev) : d.takeId.2.mbox = d.mbox := rfl
@[simp] theorem Dev.takeId_rings (d : Dev) : d.takeId.2.rings = d.rings := rfl
@[simp] theorem Dev.takeId_xlate (d : Dev) : d.takeId.2.xlate = d.xlate := rfl
@[simp] theorem Dev.takeId_faults (d : Dev) : d.takeId.2.faults = d.faults := rfl
@[simp] theorem Dev.takeId_inj (d : Dev) : d.takeId.2.inj = d.inj := rfl
@[simp] theorem Dev.takeId_contBi (d : Dev) : d.takeId.2.contBi = d.contBi := rfl
@[simp] theorem Dev.takeId_counts (d : Dev) : d.takeId.2.counts = d.counts := rfl
@[simp] theorem Dev.takeId_host (d : Dev) : d.takeId.2.host = d.host := rfl
@[simp] theorem Dev.takeId_ledger (d : Dev) : d.takeId.2.ledger = d.ledger := rfl
@[simp] theorem Dev.takeId_coh (d : Dev) : d.takeId.2.coh = d.coh := rfl
@[simp] theorem Dev.takeId_stage (d : Dev) : d.takeId.2.stage = d.stage := rfl
@[simp] theorem Dev.takeId_power (d : Dev) : d.takeId.2.power = d.power := rfl
@[simp] theorem Dev.takeId_pps (d : Dev) : d.takeId.2.pps = d.pps := rfl
@[simp] theorem Dev.takeId_sec (d : Dev) : d.takeId.2.sec = d.sec := rfl
@[simp] theorem Dev.takeId_mgmt (d : Dev) : d.takeId.2.mgmt = d.mgmt := rfl
@[simp] theorem Dev.takeId_ports (d : Dev) : d.takeId.2.ports = d.ports := rfl
@[simp] theorem Dev.takeId_seif (d : Dev) : d.takeId.2.seif = d.seif := rfl
@[simp] theorem Dev.takeId_recalBase (d : Dev) : d.takeId.2.recalBase = d.recalBase := rfl
@[simp] theorem Dev.takeId_fst (d : Dev) : d.takeId.1 = d.nextId := rfl
@[simp] theorem Dev.takeId_nextId (d : Dev) : d.takeId.2.nextId = d.nextId + 1 := rfl

/-! ## Reads of what was written -/

@[simp] theorem Dev.core_setCore (d : Dev) (k j : Nat) (x : Core) : (d.setCore k x).core j = if j = k then x else d.core j :=
  sget_sset _ _ k x j
@[simp] theorem Dev.munit_setMunit (d : Dev) (k j : Nat) (x : List MatEntry) : (d.setMunit k x).munit j = if j = k then x else d.munit j :=
  sget_sset _ _ k x j
@[simp] theorem Dev.slice_setSlice (d : Dev) (k j : Nat) (x : Slice) : (d.setSlice k x).slice j = if j = k then x else d.slice j :=
  sget_sset _ _ k x j
@[simp] theorem Dev.chan_setChan (d : Dev) (k j : Nat) (x : Chan) : (d.setChan k x).chan j = if j = k then x else d.chan j :=
  sget_sset _ _ k x j
@[simp] theorem Dev.queue_setQueue (d : Dev) (k j : Nat) (x : Queue) : (d.setQueue k x).queue j = if j = k then x else d.queue j :=
  sget_sset _ _ k x j
@[simp] theorem Dev.inst_setInst (d : Dev) (k j : Nat) (x : Inst) : (d.setInst k x).inst j = if j = k then x else d.inst j :=
  sget_sset _ _ k x j
@[simp] theorem Dev.part_setPart (d : Dev) (k j : Nat) (x : Part) : (d.setPart k x).part j = if j = k then x else d.part j :=
  sget_sset _ _ k x j
@[simp] theorem Dev.mailbox_setMailbox (d : Dev) (k j : Nat) (x : Mailbox) : (d.setMailbox k x).mailbox j = if j = k then x else d.mailbox j :=
  sget_sset _ _ k x j
@[simp] theorem Dev.group_setGroup (d : Dev) (k j : Nat) (x : Group) :
    (d.setGroup k x).group j = if j = k then some x else d.group j :=
  sfind_sput _ k x j
@[simp] theorem Dev.group_delGroup (d : Dev) (k j : Nat) :
    (d.delGroup k).group j = if j = k then none else d.group j :=
  sfind_sdel _ k j

end Sys2Proof.Machine
end

