-- ==== Sys2Proof/Laws/DevOps.lean ====
section
/-! SUPPORT. What the shared operations of the device do: each lemma says what an operation may change. -/

namespace Sys2Proof.Machine

open Sys2Proof

/-- A fault report or event changes the fault collector and device memory alone. -/
theorem Dev.logEntry_frame (d : Dev) (e : LogEntry) : { d.logEntry e with faults := d.faults, mem := d.mem } = d := by
  unfold Dev.logEntry
  dsimp only
  split <;> rfl

theorem Dev.logEntry_mem_wf (d : Dev) (e : LogEntry) (h : Mem.wf d.mem = true) : Mem.wf (d.logEntry e).mem = true := by
  unfold Dev.logEntry
  dsimp only
  split
  · exact Mem.writeNat_wf _ _ _ _ h
  · exact h

/-- Metering changes the activity counts alone. -/
theorem Dev.meter_frame (d : Dev) (dom : Nat) (acct : Option Nat) (w : Nat) : { d.meter dom acct w with counts := d.counts } = d := by
  unfold Dev.meter
  split <;> rfl

@[simp] theorem Dev.meter_none (d : Dev) (dom w : Nat) : d.meter dom none w = d := rfl

/-- A message sent is the youngest in flight. -/
@[simp] theorem Dev.send_net (d : Dev) (m : Msg) : (d.send m).net = d.net ++ [m] := rfl

theorem Dev.send_frame (d : Dev) (m : Msg) : { d.send m with net := d.net } = d := rfl

/-- Cancelled correction writes are the channels' alone. -/
theorem Dev.cancelCorrections_frame (d : Dev) (n : Nat) (s : BitVec 4) : { d.cancelCorrections n s with chans := d.chans } = d := by
  unfold Dev.cancelCorrections
  split
  · rfl
  · dsimp only
    split <;> rfl

/-- A line written changes device memory and the channels' correction writes alone. -/
theorem Dev.memWriteLine_frame (d : Dev) (n : Nat) (mask : BitVec 128) (data : LineData) :
    { d.memWriteLine n mask data with mem := d.mem, chans := d.chans } = d := by
  have h := Dev.cancelCorrections_frame d n (sectorsOf mask)
  unfold Dev.memWriteLine
  exact (congrArg (fun x : Dev => { x with mem := d.mem }) h)

/-- Writes of single bytes, one after another, keep the canonical form. -/
theorem Mem.foldl_write_wf {α : Type} (xs : List α) (m : Mem) (p : α → Bool) (a : α → Nat) (b : α → Byte) (h : m.wf = true) :
    Mem.wf (xs.foldl (fun (m : Mem) k => if p k then Mem.write m (a k) (b k) else m) m) = true := by
  induction xs generalizing m with
  | nil => exact h
  | cons x xs ih =>
    refine ih _ ?_
    by_cases hp : p x = true
    · simpa [hp] using Mem.write_wf m _ _ h
    · simpa [hp] using h

theorem Dev.cancelCorrections_mem (d : Dev) (n : Nat) (s : BitVec 4) : (d.cancelCorrections n s).mem = d.mem := by
  unfold Dev.cancelCorrections
  split
  · rfl
  · dsimp only
    split <;> rfl

theorem Dev.memWriteLine_wf (d : Dev) (n : Nat) (mask : BitVec 128) (data : LineData) (h : Mem.wf d.mem = true) :
    Mem.wf (d.memWriteLine n mask data).mem = true := by
  unfold Dev.memWriteLine
  generalize List.range 128 = xs
  exact Mem.foldl_write_wf xs _ (fun k => mask.getLsbD k) (fun k => n * 128 + k) (fun k => byteOf data.toNat k)
    ((Dev.cancelCorrections_mem d n (sectorsOf mask)).symm ▸ h)

/-- Memory after reset lists nothing, which is its canonical form. -/
theorem reset_mem_wf : Mem.wf State.reset.dev.mem = true := by decide

end Sys2Proof.Machine
end

