-- ==== Sys2Proof/Laws/GroupOps.lean ====
section
/-! SUPPORT. What the register operations of a group do (04 R126-R132): what a read gives after a write, and what a write
leaves. -/

namespace Sys2Proof.Machine

@[simp] theorem Group.readV_writeU (g : Group) (r : Nat) (x : DWord) (j l : Nat) : (g.writeU r x).readV j l = g.readV j l := rfl
@[simp] theorem Group.readP_writeU (g : Group) (r : Nat) (x : DWord) (j : Nat) : (g.writeU r x).readP j = g.readP j := rfl
@[simp] theorem Group.readU_writeV (g : Group) (r l : Nat) (x : Word) (j : Nat) : (g.writeV r l x).readU j = g.readU j := rfl
@[simp] theorem Group.readP_writeV (g : Group) (r l : Nat) (x : Word) (j : Nat) : (g.writeV r l x).readP j = g.readP j := rfl
@[simp] theorem Group.readV_writeP (g : Group) (n : Nat) (who val : Lanes) (j l : Nat) : (g.writeP n who val).readV j l = g.readV j l := rfl
@[simp] theorem Group.readU_writeP (g : Group) (n : Nat) (who val : Lanes) (j : Nat) : (g.writeP n who val).readU j = g.readU j := rfl
@[simp] theorem Group.readV_raise (g : Group) (f : Word) (j l : Nat) : (g.raise f).readV j l = g.readV j l := rfl
@[simp] theorem Group.readU_raise (g : Group) (f : Word) (j : Nat) : (g.raise f).readU j = g.readU j := rfl
@[simp] theorem Group.readP_raise (g : Group) (f : Word) (j : Nat) : (g.raise f).readP j = g.readP j := rfl
@[simp] theorem Group.flags_raise (g : Group) (f : Word) : (g.raise f).flags = g.flags ||| f := rfl
@[simp] theorem Group.flags_writeU (g : Group) (r : Nat) (x : DWord) : (g.writeU r x).flags = g.flags := rfl
@[simp] theorem Group.flags_writeV (g : Group) (r l : Nat) (x : Word) : (g.writeV r l x).flags = g.flags := rfl
@[simp] theorem Group.flags_writeP (g : Group) (n : Nat) (who val : Lanes) : (g.writeP n who val).flags = g.flags := rfl
@[simp] theorem Group.paths_writeU (g : Group) (r : Nat) (x : DWord) : (g.writeU r x).paths = g.paths := rfl
@[simp] theorem Group.paths_writeV (g : Group) (r l : Nat) (x : Word) : (g.writeV r l x).paths = g.paths := rfl
@[simp] theorem Group.paths_writeP (g : Group) (n : Nat) (who val : Lanes) : (g.writeP n who val).paths = g.paths := rfl
@[simp] theorem Group.paths_raise (g : Group) (f : Word) : (g.raise f).paths = g.paths := rfl

@[simp] theorem Group.readU_writeU (g : Group) (r : Nat) (x : DWord) (j : Nat) :
    (g.writeU r x).readU j = if j = r then x else g.readU j := sget_sset _ _ r x j

/-- Lanes are numbered 0-31: a write changes its own register in its own lane alone. -/
theorem Group.readV_writeV (g : Group) (r l : Nat) (x : Word) (j m : Nat) (hl : l < 32) (hm : m < 32) :
    (g.writeV r l x).readV j m = if j = r ∧ m = l then x else g.readV j m := by
  unfold Group.readV Group.writeV
  rw [sget_sset]
  have h : (j * 32 + m = r * 32 + l) ↔ (j = r ∧ m = l) := by omega
  simp only [h]

@[simp] theorem Group.readP_writeP (g : Group) (n : Nat) (who val : Lanes) (j : Nat) :
    (g.writeP n who val).readP j = if j = n then (g.readP n &&& ~~~who) ||| (val &&& who) else g.readP j :=
  sget_sset _ _ n _ j

/-- A write of `n` registers from `r` in a lane leaves every other register, and every other lane. -/
theorem Group.readV_writeVs_other (g : Group) (r l n x j m : Nat) (hl : l < 32) (hm : m < 32)
    (h : m ≠ l ∨ j < r ∨ r + n ≤ j) : (g.writeVs r l n x).readV j m = g.readV j m := by
  induction n generalizing g r x with
  | zero => rfl
  | succ n ih =>
    rw [Group.writeVs, ih _ _ _ (by omega), Group.readV_writeV _ _ _ _ _ _ hl hm, if_neg (by omega)]

/-- `n` registers read after they were written give the low bits of what was written. -/
theorem Group.readVs_writeVs (g : Group) (r l n x : Nat) (hl : l < 32) :
    (g.writeVs r l n x).readVs r l n = x % 2 ^ (32 * n) := by
  induction n generalizing g r x with
  | zero => simp [Group.readVs, Nat.mod_one]
  | succ n ih =>
    rw [Group.writeVs, Group.readVs, ih, Group.readV_writeVs_other _ _ _ _ _ _ _ hl hl (by omega),
      Group.readV_writeV _ _ _ _ _ _ hl hl, if_pos ⟨rfl, rfl⟩, BitVec.toNat_ofNat, Nat.mul_add, Nat.add_comm (32 * n),
      Nat.pow_add, Nat.mod_mul]

end Sys2Proof.Machine
end

