-- ==== Sys2Proof/WellFormed.lean ====
section
/-! DEFINITION. Which commands are well formed: their operands lie in the ranges the spec gives the things they
name (00 R25, R26, 01 R29, 03 R85, 11 R328, 13 R396, 14 R413, 15 R441, 17 R583). The meanings ask for no more: a command that names a thing that
does not exist finds no occasion and changes nothing. -/

namespace Sys2Proof

/-- A group slot that exists (03 R85, 01 R29): die 0-7, core 0-159, sub-core 0-3, slot 0-15. -/
def GroupRef.wf (g : GroupRef) : Bool := decide (g.die < 8) && decide (g.core < 160) && decide (g.sub < 4) && decide (g.slot < 16)

/-- A unit that exists (00 R26). -/
def UnitId.wf : UnitId → Bool
  | .core k n => decide (k < 8) && decide (n < 160)
  | .slice n => decide (n < 128)
  | .copyEngine n => decide (n < 8)
  | .collEngine n => decide (n < 4)
  | .control p => decide (p < 4)
  | .host => true

/-- An error in a symbol of a sector of a line (10 R310). -/
def SymErr.wf (e : SymErr) : Bool := decide (e.sector < 4) && decide (e.symbol < 36)

/-- What a start can find: phases 1-9, stacks, channels and cores that exist (02 R70, 17 R510). -/
def StartEnv.wf (e : StartEnv) : Bool :=
  (match e.hang with | some n => decide (1 ≤ n) && decide (n ≤ 9) | none => true)
    && (match e.detector with | some n => decide (1 ≤ n) && decide (n ≤ 16) | none => true)
    && e.laneFail.all (fun x => decide (x.1 < 8)) && e.density.all (fun x => decide (x.1 < 24))
    && e.coreFail.all (fun x => decide (x.1 < 8) && decide (x.2 < 160))

/-- The fields of a token fit their places (18 R525). -/
def Token.wf (t : Token) : Bool :=
  decide (t.magic < 2 ^ 32) && decide (t.purpose < 2 ^ 16) && decide (t.signer < 2 ^ 16) && decide (t.keyIndex < 2 ^ 32) && decide (t.arg < 2 ^ 32)
    && decide (t.ownerModulus < 2 ^ 4096) && decide (t.signature < 2 ^ 4096)

/-- Virtual functions are numbered 1-256 (13 R396). -/
def RegSpace.wf : RegSpace → Bool
  | .vfBar0 k | .vfBar2 k | .vfCfg k => decide (1 ≤ k) && decide (k ≤ 256)
  | .pf0Bar0 | .pf0Bar2 | .pf0Cfg => true

def DblSource.wf : DblSource → Bool
  | .pf0 => true
  | .vf k => decide (1 ≤ k) && decide (k ≤ 256)
  | .core k n => decide (k < 8) && decide (n < 160)

def MailboxId.wf : MailboxId → Bool
  | .foreman | .secure => true
  | .toManager i | .toTenant i => decide (i < 256)

/-- The fields of a message between modules fit their places (15 R451). -/
def SeifMsg.wf (m : SeifMsg) : Bool :=
  decide (m.dstModule < 2 ^ 12) && decide (m.dpart < 4) && decide (m.srcModule < 2 ^ 12) && decide (m.spart < 4) && decide (m.type < 64)
    && decide (m.hops < 16) && decide (m.function ≤ 0x100) && decide (m.handle < 2 ^ 13) && decide (m.dlen ≤ 14) && decide (m.data.length ≤ 224)

/-- Of a flit: sequence numbers and credits, and a BULK message or up to fifteen CTRL messages (15 R447, R451). -/
def SeifFlit.wf (f : SeifFlit) : Bool :=
  decide (f.seq < 4096) && decide (f.ack < 4096) && decide (f.ctrlCredits < 256) && decide (f.bulkCredits < 256) && f.msgs.all SeifMsg.wf
    && decide (f.msgs.length ≤ if f.bulk then 1 else 15)

def SeifPeer.wf (p : SeifPeer) : Bool := decide (p.modId < 2 ^ 12) && decide (p.port < 16)

/-- A detector of 17 R493. -/
def FaultRep.wf (r : FaultRep) : Bool := decide (1 ≤ r.detector) && decide (r.detector ≤ 0x10) && decide (r.unit < 2 ^ 24)

/-- Readings for the partitions and the core rails that exist (16 R472, R473). -/
def PowerMeas.wf (m : PowerMeas) : Bool := decide (m.partW.length ≤ 4) && decide (m.railMa.length ≤ 16)

/-- A command whose operands name things that can exist. -/
def Instr.wf : Instr → Bool
  | .start env | .startRetry env | .activatefirmware env | .pwrOkAssert env => env.wf
  | .phaseBound | .resetNAssert | .pwrOkDeassert | .vinRise | .vinLoss | .linkDown | .hotReset | .instReset | .instFreeze | .instSave
  | .instRestore | .instThaw | .s2SetRoot | .s2Invalidate | .stageExit | .flowOkNDeassert | .coolantStop | .disarm | .pageWrite
  | .nonceExpiry | .samplePreload | .idcode | .bypass | .privateRead | .getEndpointId | .getEndpointUuid | .getMessageTypeSupport | .gettid
  | .getpldmtypes | .getpdrrepositoryinfo | .requestupdate | .getVersion | .getCapabilities | .getDigests | .timeTick | .ppsIn
  | .flowOkNAssert => true
  | .clearRecord _ | .sidebandMessage _ | .hostCacheidWrite _ | .inputCurrentLimit _ | .inputSample _ | .meterInputComparison _ | .arm _
  | .ldgConsumed _ | .fltLogConsumed _ | .getNonce _ | .rollbackCommit _ | .extest _ | .dap _ | .getpdr _ | .updatecomponent _ => true
  | .hubStartCtlStart _ env => env.wf
  | .iadd g _ | .isub g _ | .imulLo g _ | .imulHi g _ | .imadLo g _ | .imin g _ | .imax g _ | .iabs g _ | .idp4 g _ | .blut g _ | .shl g _
  | .shr g _ | .sar g _ | .shf g _ | .popc g _ | .clz g _ | .brev g _ | .bfe g _ | .bfi g _ | .isetp g _ | .fsetp g _ | .sel g _
  | .plut g _ | .pmovP2v g _ | .pmovV2p g _ | .fadd g _ | .fmul g _ | .ffma g _ | .fmin g _ | .fmax g _ | .frcp g _ | .fdiv g _
  | .fsqrt g _ | .frsq g _ | .fex2 g _ | .flg2 g _ | .fsin g _ | .fcos g _ | .ftanh g _ | .cvt g _ | .cvtRs g _ | .cvtPack g _
  | .cvtUnpack g _ | .mov g _ | .movSr g _ | .movTosr g _ | .ldLocal g _ | .stLocal g _ | .ldGlobal g _ | .stGlobal g _ | .ldConst g _
  | .prefetchGlobal g _ | .bcopyG2l g _ | .bcopyL2g g _ | .bwait g _ | .atomAdd g _ | .atomMin g _ | .atomMax g _ | .atomAnd g _
  | .atomOr g _ | .atomXor g _ | .atomExch g _ | .atomCas g _ | .redAdd g _ | .redMin g _ | .redMax g _ | .rclose g _ | .fence g _
  | .nop g _ | .bra g _ | .braI g _ | .call g _ | .callI g _ | .ret g _ | .sync g _ | .syncBlock g _ | .syncCluster g _ | .yield g _
  | .exit g _ | .shfl g _ | .vote g _ | .redux g _ | .mmaF8F32 g _ | .mmaI8S32 g _ | .mmaBf16F32 g _ | .mmaF16F32 g _ | .mmaMxF32 g _
  | .mmaIx4F32 g _ | .mmaI4S32 g _ | .mms g _ | .accLd g _ | .accSt g _ | .accZero g _ | .smxMax g _ | .smxSum g _ | .bkpt g _ => g.wf
  | .bcopyComplete die core sub slot => decide (die < 8) && decide (core < 160) && decide (sub < 4) && decide (slot < 32)
  | .breakAway g => g.wf
  | .pendingRecordWrite ring => decide (ring < 256 ∨ 0x100 ≤ ring ∧ ring < 0x104)
  | .blockPlace q i | .kernel q i | .taskNop q i | .copy q i | .copy2d q i | .taskFill q i | .copyReduce q i | .put q i | .get q i
  | .collective q i | .queueCreate q i | .queueDestroy q i | .pin q i | .unpin q i | .tagClose q i | .debugAttach q i | .debugRead q i
  | .debugWrite q i | .debugStep q i | .debugResume q i | .debugKill q i | .debugDetach q i | .taskDone q i | .taskTimeout q i =>
    decide (q < 32768) && decide (i < 2 ^ 64)
  | .rdS src dst | .rdO src dst | .wr src dst | .atm src dst | .redc src dst | .fill src dst | .ack src dst | .atmRsp src dst
  | .inv src dst | .invAck src dst | .evn src dst | .held src dst => src.wf && dst.wf
  | .holdNoticeTimer slice _ => decide (slice < 128)
  | .channelReadData slice line errs => decide (slice < 128) && decide (line < 2 ^ 45) && errs.all SymErr.wf
  | .coherenceResponseTimeout unit line => unit.wf && decide (line < 2 ^ 45)
  | .memrd hpa _ | .memrddata hpa _ | .meminv hpa _ => decide (hpa % 64 = 0) && decide (hpa < 2 ^ 52)
  | .memclnevct hpa | .birspi hpa | .birsps hpa => decide (hpa % 64 = 0) && decide (hpa < 2 ^ 52)
  | .memwr hpa _ _ => decide (hpa % 64 = 0) && decide (hpa < 2 ^ 52)
  | .memwrptl hpa _ _ _ => decide (hpa % 64 = 0) && decide (hpa < 2 ^ 52)
  | .snpdata partition hpa | .snpinv partition hpa | .snpcur partition hpa => decide (partition < 4) && decide (hpa % 64 = 0) && decide (hpa < 2 ^ 52)
  | .hostCacheResponse partition hpa _ _ => decide (partition < 4) && decide (hpa % 64 = 0) && decide (hpa < 2 ^ 52)
  | .spillWaitResume slice => decide (slice < 128)
  | .correctionWrite channel => decide (channel < 768)
  | .refresh channel bank => decide (channel < 768) && decide (bank < 16)
  | .refreshRatePoll package readout => decide (package < 24) && decide (readout < 8)
  | .patrolScrubRead channel errs => decide (channel < 768) && errs.all SymErr.wf
  | .recalibration channel _ | .recalibrationOverdue channel _ => decide (channel < 768)
  | .dblProducer source page slot _ | .bootstrapCreate source page slot _ => source.wf && decide (page < 512) && decide (slot < 64)
  | .descriptorRead q => decide (q < 32768)
  | .fencePoll q cursor => decide (q < 32768) && decide (cursor < 4)
  | .destroyDrainComplete target => decide (target < 32768)
  | .faultReport rep => rep.wf
  | .warmRestart p _ => decide (p < 4)
  | .linkRetrain modules rate => decide (modules < 16) && decide (rate < 4)
  | .functionLevelReset fn => decide (fn < 257)
  | .dmwrPost space _ size _ | .registerWrite space _ size _ => space.wf && decide (1 ≤ size) && decide (size ≤ 64)
  | .postedWriteDrop space _ => space.wf
  | .hdmDecoderCommit n base size _ _ => decide (n < 4) && decide (base < 2 ^ 52) && decide (size ≤ 2 ^ 52)
  | .mbxRxAck mb _ => mb.wf
  | .freezeDrainComplete inst => decide (inst < 256)
  | .seifTraining port peer | .retrain port peer => decide (port < 16) && peer.wf
  | .laneLossOfLock port lane => decide (port < 16) && decide (lane < 8)
  | .payload port flit => decide (port < 16) && flit.wf
  | .nak port a => decide (port < 16) && decide (a < 4096)
  | .nullFlit port a cc bc => decide (port < 16) && decide (a < 4096) && decide (cc < 256) && decide (bc < 256)
  | .nullTimer port | .putData port | .putAck port | .getReq port | .getData port | .signal port | .signalAck port | .collReady port
  | .collData port | .collAbort port | .nack port => decide (port < 16)
  | .laneChange port lanes => decide (port < 16) && decide (lanes < 256)
  | .controlPeriod meas => meas.wf
  | .budgetSet id _ => decide (id < 2 ^ 16)
  | .coreCurrentLimit rail _ => decide (rail < 16)
  | .monitorReading monitor _ | .thermalTrip monitor _ => decide (monitor < 264)
  | .canary unit handshake _ => decide (unit < 9) && decide (handshake < 2 ^ 16)
  | .configCode unit word _ => decide (unit < 9) && decide (word < 2 ^ 32)
  | .meterCheck rail _ _ | .voltageMon rail _ _ => decide (rail < 52)
  | .thermalMon pair _ _ => decide (pair < 132)
  | .lockstep unit _ => decide (unit < 4)
  | .clockMon unit _ => decide (unit < 100)
  | .meterTick _ _ => true
  | .unseal tok _ | .testAuth tok _ => tok.wf
  | .ownerProvision modulus _ _ => decide (modulus < 2 ^ 4096)
  | .fieldReturn tok _ _ | .revokeKey tok _ _ => tok.wf
  | .entdaa addr => decide (addr < 128)
  | .setEndpointId eid => decide (eid < 256)
  | .getMctpVersionSupport type | .getpldmversion type | .getpldmcommands type => decide (type < 256)
  | .getsensorreading id | .getstatesensorreadings id | .getnumericeffectervalue id => decide (id < 2 ^ 16)
  | .passcomponenttable id _ _ => decide (id < 2 ^ 16)
  | .requestfirmwaredata _ _ _ _ => true
  | .negotiateAlgorithms offered => decide (offered < 2 ^ 32)
  | .getCertificate slot _ _ => decide (slot < 8)
  | .challenge slot _ => decide (slot < 8)
  | .getMeasurements op _ _ => decide (op < 256)
  | .matrixUnitWorkComplete die core sub => decide (die < 8) && decide (core < 160) && decide (sub < 4)

end Sys2Proof
end

