-- ==== Sys2Proof/Tests/Slice0.lean ====
section
/-! SUPPORT. Tests of the model, each a named theorem: ill-formed commands that the check refuses, instruction words
written out from the spec's encodings, a state that meets the hypotheses of each statement (`wit_…`), and steps whose
result the spec works out. -/

namespace Sys2Proof.Tests

open Sys2Proof Sys2Proof.Machine

set_option Elab.async false

/-! ## Well-formed commands -/

/-- Each bound of a group slot, and of a unit, refuses the first value beyond it. -/
theorem test_wf_units : ([⟨8, 0, 0, 0⟩, ⟨0, 160, 0, 0⟩, ⟨0, 0, 4, 0⟩, ⟨0, 0, 0, 16⟩] : List GroupRef).all (fun g => !g.wf) = true
    ∧ [UnitId.core 8 0, .core 0 160, .slice 128, .copyEngine 8, .collEngine 4, .control 4].all (fun u => !u.wf) = true
    ∧ GroupRef.wf ⟨7, 159, 3, 15⟩ = true ∧ [UnitId.core 7 159, .slice 127, .host].all (·.wf) = true := by decide

/-- The parts of commands refuse what does not fit its place. -/
theorem test_wf_parts :
    ([⟨4, 0, 1⟩, ⟨0, 36, 1⟩] : List SymErr).all (fun e => !e.wf) = true
    ∧ [({ hang := some 0 } : StartEnv), { hang := some 10 }, { detector := some 17 }, { laneFail := [(8, 0, 0)] }, { density := [(24, 0)] },
        { coreFail := [(0, 160)] }].all (fun e => !e.wf) = true
    ∧ [RegSpace.vfBar0 0, .vfBar2 257, .vfCfg 0].all (fun x => !x.wf) = true
    ∧ [DblSource.vf 0, .vf 257, .core 8 0].all (fun x => !x.wf) = true
    ∧ [MailboxId.toManager 256, .toTenant 256].all (fun x => !x.wf) = true
    ∧ ([{ present := true, good := 0, modId := 4096, port := 0 }, { present := true, good := 0, modId := 0, port := 16 }] : List SeifPeer).all
        (fun x => !x.wf) = true
    ∧ ([{ detector := 0, unit := 0, detected := true }, { detector := 17, unit := 0, detected := true },
        { detector := 1, unit := 2 ^ 24, detected := true }] : List FaultRep).all (fun x => !x.wf) = true
    ∧ ([{ inputW := 0, inputDa := 0, partW := [0, 0, 0, 0, 0] }, { inputW := 0, inputDa := 0, railMa := List.replicate 17 0 }] : List PowerMeas).all
        (fun x => !x.wf) = true := by decide

def seifMsg0 : SeifMsg := { dstModule := 0, dpart := 0, srcModule := 1, spart := 0, type := 0x10, function := 0x100 }
def token0 : Token :=
  { magic := 0, purpose := 0, signer := 0, keyIndex := 0, arg := 0, serial := 0, nonce := 0, zero := true, ownerModulus := 0, signature := 0 }

theorem test_wf_seif : seifMsg0.wf = true
    ∧ [{ seifMsg0 with dstModule := 4096 }, { seifMsg0 with dpart := 4 }, { seifMsg0 with srcModule := 4096 }, { seifMsg0 with spart := 4 },
        { seifMsg0 with type := 64 }, { seifMsg0 with hops := 16 }, { seifMsg0 with function := 0x101 }, { seifMsg0 with handle := 8192 },
        { seifMsg0 with dlen := 15 }, { seifMsg0 with data := List.replicate 225 0 }].all (fun m => !m.wf) = true
    ∧ ([{ seq := 4096, ack := 0, bulk := false, msgs := [] }, { seq := 0, ack := 4096, bulk := false, msgs := [] },
        { seq := 0, ack := 0, bulk := false, ctrlCredits := 256, msgs := [] }, { seq := 0, ack := 0, bulk := false, bulkCredits := 256, msgs := [] },
        { seq := 0, ack := 0, bulk := true, msgs := [seifMsg0, seifMsg0] }, { seq := 0, ack := 0, bulk := false, msgs := List.replicate 16 seifMsg0 },
        { seq := 0, ack := 0, bulk := true, msgs := [{ seifMsg0 with dpart := 4 }] }] : List SeifFlit).all (fun f => !f.wf) = true := by decide +kernel

theorem test_wf_token : [{ token0 with magic := 2 ^ 32 }, { token0 with purpose := 2 ^ 16 }, { token0 with signer := 2 ^ 16 },
    { token0 with keyIndex := 2 ^ 32 }, { token0 with arg := 2 ^ 32 }].all (fun t => !t.wf) = true
    ∧ Token.wf { token0 with ownerModulus := 2 ^ 4096 } = false ∧ Token.wf { token0 with signature := 2 ^ 4096 } = false
    ∧ Instr.wf (.ownerProvision (2 ^ 4096) true true) = false
    ∧ token0.wf = true := by decide +kernel

/-- Every check that a command makes of its own operands refuses one. -/
theorem test_wf_commands : [Instr.start { hang := some 10 }, .startRetry { hang := some 0 }, .activatefirmware { hang := some 0 },
    .pwrOkAssert { hang := some 0 }, .hubStartCtlStart 0 { hang := some 0 }, .iadd ⟨8, 0, 0, 0⟩ {}, .ldLocal ⟨8, 0, 0, 0⟩ {}, .movSr ⟨8, 0, 0, 0⟩ {},
    .bra ⟨8, 0, 0, 0⟩ {}, .breakAway ⟨0, 0, 4, 0⟩, .bcopyComplete 0 0 0 32, .pendingRecordWrite 0x104, .kernel 32768 0, .taskNop 0 (2 ^ 64),
    .rdS (.slice 128) .host, .fill .host (.slice 128), .holdNoticeTimer 128 0, .channelReadData 128 0 [], .channelReadData 0 (2 ^ 45) [],
    .channelReadData 0 0 [⟨4, 0, 1⟩], .coherenceResponseTimeout (.slice 128) 0, .memrd 32 .i, .memrddata (2 ^ 52) .i, .meminv 1 .i, .memclnevct 32,
    .birspi 32, .birsps 32, .memwr 32 0 .i, .memwrptl 32 0 0 .i, .snpdata 4 0, .snpinv 0 1, .snpcur 0 (2 ^ 52), .hostCacheResponse 4 0 .i 0,
    .spillWaitResume 128, .correctionWrite 768, .refresh 768 0, .refresh 0 16, .refreshRatePoll 24 0, .refreshRatePoll 0 8,
    .patrolScrubRead 768 [], .recalibration 768 false, .recalibrationOverdue 768 true].all (fun i => !i.wf) = true := by decide

theorem test_wf_commands2 : [Instr.dblProducer (.vf 0) 0 0 0, .dblProducer .pf0 512 0 0, .bootstrapCreate .pf0 0 64 0, .descriptorRead 32768,
    .fencePoll 0 4, .destroyDrainComplete 32768, .faultReport { detector := 0, unit := 0, detected := true }, .warmRestart 4 true, .linkRetrain 16 0,
    .linkRetrain 0 4, .functionLevelReset 257, .registerWrite .pf0Bar0 0 0 0, .dmwrPost .pf0Bar2 0 65 0, .postedWriteDrop (.vfCfg 0) 0,
    .hdmDecoderCommit 4 0 0 1 0, .mbxRxAck (.toTenant 256) 0, .freezeDrainComplete 256,
    .seifTraining 16 { present := true, good := 0, modId := 0, port := 0 }, .laneLossOfLock 0 8,
    .payload 16 { seq := 0, ack := 0, bulk := false, msgs := [] }, .nak 16 0, .nak 0 4096, .nullFlit 0 0 256 0, .nullTimer 16, .putData 16, .signal 16,
    .nack 16, .laneChange 0 256, .controlPeriod { inputW := 0, inputDa := 0, partW := [0, 0, 0, 0, 0] }, .budgetSet (2 ^ 16) 0,
    .coreCurrentLimit 16 0, .monitorReading 264 0, .thermalTrip 264 0, .canary 9 0 false, .configCode 0 (2 ^ 32) 0, .meterCheck 52 0 0,
    .voltageMon 52 0 0, .thermalMon 132 0 0, .canary 0 65536 false, .lockstep 4 false, .clockMon 100 true, .unseal { token0 with magic := 2 ^ 32 } false, .testAuth { token0 with arg := 2 ^ 32 } true, .fieldReturn { token0 with signer := 65536 } true true,
    .revokeKey { token0 with purpose := 65536 } true true, .entdaa 128, .setEndpointId 256,
    .getMctpVersionSupport 256, .getpldmcommands 256, .getsensorreading (2 ^ 16), .passcomponenttable (2 ^ 16) 0 0,
    .negotiateAlgorithms (2 ^ 32), .getCertificate 8 0 0, .challenge 8 0, .getMeasurements 256 0 false, .matrixUnitWorkComplete 0 0 4].all
      (fun i => !i.wf) = true := by decide

/-! ## Instruction words (the first five are the worked encodings of 04) -/

theorem test_decode_worked (g : GroupRef) :
    decodeIns g 0x4001_0003_040A_4401#64 0 = some (.iadd g { guard := 17, d := 10, a := 4, b := 3, mod := 1, kb := true })
    ∧ decodeIns g 0x0000_00C0_0008_4681#64 0 = some (.bra g { guard := 17, toff := 8, coff := 12 })
    ∧ decodeIns g 0x0000_000F_FFFE_4A81#64 0 = some (.bra g { guard := 18, toff := 0xFFFFE })
    ∧ decodeIns g 0x0074_0040_0609_0184#64 0 = some (.stGlobal g { d := 9, a := 6, off16 := 0x40, width := 4, sem := 2, scope := 3 })
    ∧ decodeIns g 0x1002_0000_0002_8141#64 0x0000_7F00_0010_0000#64
        = some (.mov g { lf := true, d := 2, mod := 2, uf := true, imm := 0x0000_7F00_0010_0000 }) := ⟨rfl, rfl, rfl, rfl, rfl⟩

/-- Words put together from the fields of R136-R142 and the opcodes of R146, one for each other class: BLUT.64 with truth
table 0x96, ISETP.GE.S32 combined AND with p3 negated, FFMA.F64.RU, CVT.PACK with a scale, MOV.SR v9 of sr 0x21, LD.LOCAL.S8
uniform, BWAIT, ATOM.CAS.U64.ACQREL.DEVICE, RED.ADD.S64, FENCE.REL.MODULE, CALL.I with link v4, SHFL.XOR.64, MMA.F8.F32
and BKPT 7. -/
theorem test_decode_classes (g : GroupRef) :
    decodeIns g 0x0196_0604_0208_0041#64 0 = some (.blut g { d := 8, a := 2, b := 4, c := 6, mod := 0x196 })
    ∧ decodeIns g 0x00AD_0305_0402_0081#64 0 = some (.isetp g { d := 2, a := 4, b := 5, c := 3, mod := 0xAD })
    ∧ decodeIns g 0x0009_0604_0208_00C3#64 0 = some (.ffma g { d := 8, a := 2, b := 4, c := 6, mod := 9 })
    ∧ decodeIns g 0x8107_0603_0201_0102#64 0 = some (.cvtPack g { d := 1, a := 2, b := 3, c := 6, mod := 0x107, kc := true })
    ∧ decodeIns g 0x0000_0021_0009_0142#64 0 = some (.movSr g { d := 9, imm16 := 0x21 })
    ∧ decodeIns g 0x1001_0004_0203_0181#64 0 = some (.ldLocal g { d := 3, a := 2, off16 := 4, width := 1, uf := true })
    ∧ decodeIns g 0x1000_0004_0200_0188#64 0 = some (.bwait g { a := 2, b := 4, uf := true })
    ∧ decodeIns g 0x007A_0604_0208_01C8#64 0 = some (.atomCas g { d := 8, a := 2, b := 4, c := 6, mod := 0x7A })
    ∧ decodeIns g 0x8004_0604_0200_0201#64 0 = some (.redAdd g { a := 2, b := 4, c := 6, mod := 4, kc := true })
    ∧ decodeIns g 0x0012_0000_0000_0241#64 0 = some (.fence g { mod := 0x12 })
    ∧ decodeIns g 0x0400_0018_0006_0284#64 0 = some (.callI g { toff := 0x80006, coff := 1, link := 4 })
    ∧ decodeIns g 0x0807_0001_0204_02C1#64 0 = some (.shfl g { d := 4, a := 2, b := 1, mod := 7, ib := true })
    ∧ decodeIns g 0x0000_1810_0800_0301#64 0 = some (.mmaF8F32 g { d := 0, a := 8, b := 16, c := 24 })
    ∧ decodeIns g 0x0000_0007_0000_0341#64 0 = some (.bkpt g { imm16 := 7 })
    ∧ decodeIns g 0x0000_0000_0000_0010#64 0 = none := ⟨rfl, rfl, rfl, rfl, rfl, rfl, rfl, rfl, rfl, rfl, rfl, rfl, rfl, rfl, rfl⟩

/-- Opcode-table rows give no bits, so that no word spells a command. -/
theorem test_decode_table : decodeTableWord 64 0x4001_0003_040A_4401 = none := rfl

/-! ## A small device: one partition of every stack, which runs; one group of one block of one kernel task -/

def path0 : Path := { mask := 0xFFFFFFFF, pc := 0x100, status := .running }
def group0 : Group := { q := 0, i := 0, block := 0, num := 0, nv := 32, acc := 4, paths := [path0] }
def run0 : Run :=
  { q := 0, i := 0, part := 0, fn := 0x100, engine := 0, prio := 0, debug := false, entry := 0x100, csegVa := 0, csegLen := 0, cblock := 0,
    cblockSize := 0, dx := 32, dy := 1, dz := 1, cx := 1, cy := 1, cz := 1, gx := 1, gy := 1, gz := 1, nv := 32, acc := 4, lmem := 4,
    split := 256, seed := 0, release := 0, acct := none, live := 1 }
def block0 : Block := { slot := 0, q := 0, i := 0, index := 0, cluster := 0, rank := 0, lmem := 4, groups := 1 }
def task0 : Task := { q := 0, i := 0, desc := 1, state := .released, head := true }
def conf0 : Conf := { parts := [some { first := 0, lodes := 4 }, none, none, none] }
/-- The device, running and empty. -/
def dev0 : Dev :=
  { conf := conf0, parts := [(0, { state := .running })], start := { state := .ready },
    power := { rails := { hub := true, core := true, base := true, mem := true, seif := true }, pins := { resetN := true } } }
/-- The device with groups of die 0, core 0, sub-core 0 by slot. -/
def devOf (gs : List (Nat × Group)) : Dev := { dev0 with groups := gs, runs := [run0], tasks := [task0], cores := [(0, { blocks := [block0] })] }
def stOf (gs : List (Nat × Group)) : State := { dev := devOf gs }
def g0 : GroupRef := ⟨0, 0, 0, 0⟩
/-- What the group of slot 0 has at hand when it runs path `p`. -/
def ctxOf (k : Group) (p : Path) : Ctx := { key := 0, die := 0, core := 0, sub := 0, grp := k, path := p, part := 0, run := run0 }
def s0 : State := stOf [(0, group0)]
def c0 : Ctx := ctxOf group0 path0

/-- The registers of a word are legal and free. -/
def legalB (s : State) (c : Ctx) (uses : Option (List Use)) : Bool := match uses with | some us => !s.dev.interlocked c us | none => false
theorem legal_of {s : State} {c : Ctx} {uses : Option (List Use)} (h : legalB s c uses = true) : Legal s c uses := by
  unfold legalB at h
  split at h
  · exact ⟨_, rfl, by simpa using h⟩
  · cases h

theorem wit_canIssue : CanIssue s0 g0 c0 := by unfold CanIssue; decide +kernel

/-- Words for the rows: each row finds one among them that it accepts. -/
def words : List FmtA :=
  [{}, { mod := 3 }, { uf := true }, { d := 2, a := 4, b := 6, mod := 2 }, { ka := true, kc := true }, { mod := 0x107, kc := true },
   { lf := true, imm := 5 }, { guard := 17 }]

/-- IntegerAndLogic, FloatAndConvert, LanesAndPredicates: every row has a legal word in `s0`. -/
theorem wit_rows : CanIssue s0 g0 c0 ∧ (∀ r ∈ integerRows ++ logicRows ++ crossRows, ∃ w ∈ words, Legal s0 c0 (r.uses 32 w))
    ∧ (∀ r ∈ floatRows ++ convertRows, ∃ w ∈ words, Legal s0 c0 (r.uses 32 w))
    ∧ (∀ r ∈ predRows, ∃ w ∈ words, Legal s0 c0 (aUses 32 w (r.spec w))) := by
  refine ⟨wit_canIssue, ?_, ?_, ?_⟩
  · intro r hr
    have h : (integerRows ++ logicRows ++ crossRows).all (fun r => words.any (fun w => legalB s0 c0 (r.uses 32 w))) = true := by decide +kernel
    obtain ⟨w, hw, hl⟩ := List.any_eq_true.1 (List.all_eq_true.1 h r hr)
    exact ⟨w, hw, legal_of hl⟩
  · intro r hr
    have h : (floatRows ++ convertRows).all (fun r => words.any (fun w => legalB s0 c0 (r.uses 32 w))) = true := by decide +kernel
    obtain ⟨w, hw, hl⟩ := List.any_eq_true.1 (List.all_eq_true.1 h r hr)
    exact ⟨w, hw, legal_of hl⟩
  · intro r hr
    have h : predRows.all (fun r => words.any (fun w => legalB s0 c0 (aUses 32 w (r.spec w)))) = true := by decide +kernel
    obtain ⟨w, hw, hl⟩ := List.any_eq_true.1 (List.all_eq_true.1 h r hr)
    exact ⟨w, hw, legal_of hl⟩

/-- The clauses of IntegerAndLogic on sums and saturation, at the ends of their ranges. -/
theorem wit_saturation : ({ mod := 1 } : FmtA).mod.toNat < 2 ∧ tySigned {} = false ∧ (-1 : Int) < 0 ∧ (2 ^ 32 : Int) > (2 ^ tyBits {} : Nat) - 1
    ∧ tySigned { mod := 1 } = true ∧ (-2 ^ 31 - 1 : Int) < -(2 ^ (tyBits { mod := 1 } - 1) : Nat)
    ∧ (2 ^ 31 : Int) > (2 ^ (tyBits { mod := 1 } - 1) : Nat) - 1 := by decide

/-- IllegalOrInterlocked: d beyond the group's registers; every row has a word with a bit above the eight registers of a
predicate or a register that the group lacks; and a load in flight to v0 holds back what names v0. -/
theorem wit_illegal : CanIssue s0 g0 c0 ∧ c0.grp.nv ≤ ({ d := 32 } : FmtA).d.toNat
    ∧ (∀ r ∈ integerRows ++ logicRows ++ floatRows ++ convertRows, r.uses c0.grp.nv { d := 255 } = none) := by
  refine ⟨wit_canIssue, by decide, ?_⟩
  have h : (integerRows ++ logicRows ++ floatRows ++ convertRows).all (fun r => r.uses c0.grp.nv { d := 255 } == none) = true := by decide +kernel
  intro r hr
  exact eq_of_beq (List.all_eq_true.1 h r hr)

/-- A load of 16 bytes to v0-v3 that has not been answered. -/
def load0 : PendLoad :=
  { id := 1, gkey := 0, lanes := 0xFFFFFFFF, uni := false, dst := 0, width := 6, sem := 0, scope := 2, hint := 0, fill := true,
    waiting := [(0, false, 0)] }
def sLoad : State := { dev := { devOf [(0, group0)] with cores := [(0, { blocks := [block0], loads := [load0] })] } }
theorem wit_interlocked : CanIssue sLoad g0 c0
    ∧ (∀ r ∈ integerRows ++ logicRows ++ floatRows ++ convertRows, ∃ w ∈ words, ∃ us, r.uses c0.grp.nv w = some us ∧ sLoad.dev.interlocked c0 us = true) := by
  refine ⟨by unfold CanIssue; decide +kernel, ?_⟩
  have h : (integerRows ++ logicRows ++ floatRows ++ convertRows).all (fun r => words.any (fun w => match r.uses 32 w with
    | some us => sLoad.dev.interlocked c0 us | none => false)) = true := by decide +kernel
  intro r hr
  obtain ⟨w, hw, hl⟩ := List.any_eq_true.1 (List.all_eq_true.1 h r hr)
  refine ⟨w, hw, ?_⟩
  change (match r.uses 32 w with | some us => sLoad.dev.interlocked c0 us | none => false) = true at hl
  change ∃ us, r.uses 32 w = some us ∧ _
  split at hl
  · exact ⟨_, ‹_›, hl⟩
  · cases hl

/-! ## Special registers and control -/

theorem wit_specialRegisters : CanIssue s0 g0 c0
    ∧ (srRegs ({ imm16 := 0x20 } : FmtI).imm16.toNat = some 1 ∧ Legal s0 c0 (iUses 32 { imm16 := 0x20 } (some 1) none)
        ∧ s0.dev.trapUncovered c0.part = false ∧ s0.dev.matrixBusy c0.key = false)
    ∧ (srRegs 0x23 = some 1 ∧ Legal s0 c0 (iUses 32 { imm16 := 0x23, uf := true } (some 1) none) ∧ srCovered 0x23 = true)
    ∧ (Legal s0 c0 (iUses 32 { imm16 := 0x21, a := 30 } none (some 2)) ∧ (c0.takers 0 false).getLast? = some 31)
    ∧ (s0.dev.munit (c0.key / 16) = [] ∧ Legal s0 c0 (iUses 32 { imm16 := 0x20, ka := true } none (some 1)) ∧ c0.takers 0 false ≠ []) :=
  ⟨wit_canIssue, ⟨by decide, legal_of (by decide +kernel), by decide +kernel⟩, ⟨by decide, legal_of (by decide +kernel), by decide⟩,
    ⟨legal_of (by decide +kernel), by decide +kernel⟩, by decide +kernel, legal_of (by decide +kernel), by decide +kernel⟩

/-- A second path, ready, and one parked at point 7, whose pc is 0x200. -/
def pathR : Path := { mask := 0xFFFF0000, pc := 0x180, status := .ready 0 }
def pathL : Path := { mask := 0x0000FFFF, pc := 0x100, status := .running }
def groupTwo : Group := { group0 with paths := [pathL, pathR], clock := 1 }
def sTwo : State := stOf [(0, groupTwo)]
def groupParked : Group :=
  { group0 with paths := [{ pathL with points := [7] }, { pathR with pc := 0x200, points := [7], status := .parked 0 }], points := [(7, 0x200)],
                spins := 1024 }
def sParked : State := stOf [(0, groupParked)]

theorem wit_control : CanIssue s0 g0 c0 ∧ Legal s0 c0 (aUses 32 {} { modOk := true }) ∧ Alone c0 ∧ c0.lanes 0 ≠ 0
    ∧ (CanIssue sTwo g0 (ctxOf groupTwo pathL) ∧ Legal sTwo (ctxOf groupTwo pathL) (aUses 32 {} { modOk := true })
        ∧ groupTwo.paths = [pathL, pathR] ∧ pathL.points = [] ∧ pathR.points = [] ∧ groupTwo.points = [] ∧ pathR.status = .ready 0
        ∧ 0 < groupTwo.clock ∧ (ctxOf groupTwo pathL).lanes 0 ≠ 0) := by
  refine ⟨wit_canIssue, legal_of (by decide +kernel), ⟨rfl, rfl, rfl⟩, by decide +kernel, by unfold CanIssue; decide +kernel,
    legal_of (by decide +kernel), by decide +kernel⟩

theorem wit_breakAway : ∃ r q, sParked.dev.group (gkeyOf g0) = some groupParked ∧ sParked.dev.partOfStack g0.die = some 0
    ∧ sParked.dev.partRuns 0 = true ∧ groupParked.paths = [r, q] ∧ r.status = .running ∧ r.points = [7] ∧ groupParked.points = [(7, 0x200)]
    ∧ r.pc ≠ 0x200 ∧ q.status = .parked 0 ∧ q.points = [7] ∧ 0 + 1024 ≤ groupParked.spins :=
  ⟨{ pathL with points := [7] }, { pathR with pc := 0x200, points := [7], status := .parked 0 }, by decide +kernel⟩

/-- p1 holds in lanes 0-15. -/
def groupHalf : Group := { group0 with p := [(1, 0x0000FFFF)] }
def sHalf : State := stOf [(0, groupHalf)]
def cHalf : Ctx := ctxOf groupHalf path0

/-- Branches: under no guard, under p2 (no lane) and p1 (half of them), without a point and with one, BRA and CALL. -/
theorem wit_branches : CanIssue sHalf g0 cHalf ∧ Alone cHalf
    ∧ (∀ w ∈ [({ toff := 8 } : FmtB), { guard := 17, toff := 8 }, { guard := 18, toff := 8 }, { guard := 17, toff := 8, coff := 12 }],
        Legal sHalf cHalf (bUses 32 w false false true) ∧ Legal sHalf cHalf (bUses 32 { w with link := 4 } false true true))
    ∧ cHalf.lanes 18 = 0 ∧ (cHalf.lanes 0 ≠ 0 ∧ path0.mask &&& ~~~cHalf.lanes 0 = 0)
    ∧ (cHalf.lanes 17 ≠ 0 ∧ path0.mask &&& ~~~cHalf.lanes 17 ≠ 0)
    ∧ coffPoint { guard := 17, toff := 8, coff := 12 } 0x100 = some 0x160 ∧ 0x160 ≠ path0.pc + insLen false
    ∧ 0x160 ≠ directTarget { guard := 17, toff := 8, coff := 12 } 0x100 := by
  refine ⟨by unfold CanIssue; decide +kernel, ⟨rfl, rfl, rfl⟩, ?_, by decide +kernel⟩
  intro w hw
  have h : [({ toff := 8 } : FmtB), { guard := 17, toff := 8 }, { guard := 18, toff := 8 }, { guard := 17, toff := 8, coff := 12 }].all (fun w =>
      legalB sHalf cHalf (bUses 32 w false false true) && legalB sHalf cHalf (bUses 32 { w with link := 4 } false true true)) = true := by
    decide +kernel
  have := List.all_eq_true.1 h w hw
  rw [Bool.and_eq_true] at this
  exact ⟨legal_of this.1, legal_of this.2⟩

/-- One lane, whose v0 pair holds a target, and v2 pair one with a bit above the 56 of a pc, v4 one that is no multiple of 8. -/
def path1 : Path := { path0 with mask := 1 }
def group1 : Group := { group0 with paths := [path1], v := [(0, 0xFFFFFFF8), (32, 0x00FFFFFF), (96, 0x01000000), (128, 4)] }
def s1 : State := stOf [(0, group1)]
def c1 : Ctx := ctxOf group1 path1

theorem wit_indirect : CanIssue s1 g0 c1 ∧ Alone c1
    ∧ (∀ a ∈ [(0 : BitVec 20), 2, 4], Legal s1 c1 (bUses 32 { toff := a } true false false) ∧ Legal s1 c1 (bUses 32 { toff := a, link := 6 } true true false))
    ∧ c1.lanes 0 = c1.path.mask ∧ c1.lanes 0 ≠ 0
    ∧ (∀ l ∈ lanesOf (c1.lanes 0), indirectTarget group1 { toff := 0 } l = 2 ^ 56 - 8) ∧ (2 ^ 56 - 8) % 8 = 0
    ∧ 0 ∈ lanesOf (c1.lanes 0) ∧ 2 ^ 56 ≤ indirectTarget group1 { toff := 2 } 0 ∧ indirectTarget group1 { toff := 4 } 0 % 8 ≠ 0 := by
  refine ⟨by unfold CanIssue; decide +kernel, ⟨rfl, rfl, rfl⟩, ?_, by decide +kernel⟩
  intro a ha
  have h : [(0 : BitVec 20), 2, 4].all (fun a => legalB s1 c1 (bUses 32 { toff := a } true false false)
      && legalB s1 c1 (bUses 32 { toff := a, link := 6 } true true false)) = true := by decide +kernel
  have := List.all_eq_true.1 h a ha
  rw [Bool.and_eq_true] at this
  exact ⟨legal_of this.1, legal_of this.2⟩

/-- Two groups of the block, in slots 0 and 1, both with a running path. -/
def sBoth : State := stOf [(0, group0), (1, { group0 with num := 1 })]

theorem wit_exitSync : (CanIssue sHalf g0 cHalf ∧ Alone cHalf ∧ Legal sHalf cHalf (aUses 32 { guard := 17 } { modOk := true })
      ∧ path0.mask &&& ~~~cHalf.lanes 17 ≠ 0)
    ∧ (CanIssue s0 g0 c0 ∧ Alone c0 ∧ Legal s0 c0 (aUses 32 {} { modOk := true }) ∧ path0.mask &&& ~~~c0.lanes 0 = 0
        ∧ ∀ m ∈ s0.dev.munit (c0.key / 16), m.gkey ≠ c0.key)
    ∧ (c0.lanes 0 = c0.path.mask ∧ c0.path.mask ≠ 0 ∧ Legal s0 c0 (aUses 32 { mod := 1 } { a := .unused, modOk := true })
        ∧ (BitVec.allOnes 32 : Lanes) &&& ~~~c0.path.mask &&& ~~~c0.grp.exited = 0)
    ∧ (CanIssue sTwo g0 (ctxOf groupTwo pathL) ∧ Legal sTwo (ctxOf groupTwo pathL) (aUses 32 { mod := 1 } { a := .unused, modOk := true })
        ∧ (BitVec.allOnes 32 : Lanes) &&& pathR.mask &&& ~~~pathL.mask &&& ~~~groupTwo.exited ≠ 0)
    ∧ (s0.dev.localPending 0 = false ∧ s0.dev.unperformed c0 path0.mask 1 = false ∧ s0.dev.groupsOf 0 0 = [(0, group0)]) :=
  ⟨⟨by unfold CanIssue; decide +kernel, ⟨rfl, rfl, rfl⟩, legal_of (by decide +kernel), by decide +kernel⟩,
    ⟨wit_canIssue, ⟨rfl, rfl, rfl⟩, legal_of (by decide +kernel), by decide +kernel⟩,
    ⟨by decide +kernel, by decide, legal_of (by decide +kernel), by decide⟩,
    ⟨by unfold CanIssue; decide +kernel, legal_of (by decide +kernel), by decide⟩, by decide +kernel⟩

theorem wit_barriers : CanIssue sBoth g0 c0 ∧ Alone c0 ∧ Legal sBoth c0 (aUses 32 {} { modOk := true }) ∧ c0.lanes 0 = c0.path.mask
    ∧ sBoth.dev.localPending 0 = false ∧ (1, { group0 with num := 1 }) ∈ sBoth.dev.groupsOf 0 0 ∧ 1 ≠ c0.key ∧ path0.status = .running
    ∧ sBoth.dev.unperformed c0 path0.mask 1 = false ∧ sBoth.dev.unperformed c0 path0.mask 2 = false ∧ (sBoth.dev.blockOf 0 group0).isSome :=
  ⟨by unfold CanIssue; decide +kernel, ⟨rfl, rfl, rfl⟩, legal_of (by decide +kernel), by decide +kernel⟩

/-! ## Memory -/

/-- One lane: v4, v5 hold the address 0x1000, whose home is slice 16 of stack 1, v6 the local offset 16, v7 one outside the
block; u0-u3 hold 0, 0, 0x1000 and 0. -/
def groupM : Group := { group0 with paths := [path1], v := [(128, 0x1000), (192, 16), (224, 0x7FFFFFF0)], u := [(2, 0x1000), (4, 16), (6, 32)] }
def cM : Ctx := ctxOf groupM path1
def sM : State := stOf [(0, groupM)]
/-- The core's L1 holds the line of 0x1000. -/
def l1Line0 : L1Line := { host := false, line := 32, valid := 15, data := 5, epoch := 0, used := 0 }
def sL1 : State := { dev := { devOf [(0, groupM)] with cores := [(0, { blocks := [block0], l1 := [l1Line0] })] } }

theorem wit_canIssueM : CanIssue sM g0 cM := by unfold CanIssue; decide +kernel
theorem wit_canIssueL1 : CanIssue sL1 g0 cM := by unfold CanIssue; decide +kernel

theorem wit_local : CanIssue sM g0 cM
    ∧ (∀ w ∈ [({ width := 4, d := 8, a := 6 } : FmtM), { width := 4, d := 8, a := 7 }],
        Legal sM cM (mUses 32 w 1 true true (loadSem w && w.hint == 0)) ∧ Legal sM cM (mUses 32 w 1 true false (storeSem w && w.hint == 0)))
    ∧ (let w : FmtM := { width := 4, d := 8, a := 6 }
       sM.dev.localOk cM (localLanes cM w) 4 = true ∧ localLanes cM w ≠ [] ∧ sM.dev.mustWait cM (cM.accessLanes 0 false) false 0 0 = false
        ∧ sM.dev.mustWait cM (cM.accessLanes 0 false) true 0 0 = false ∧ sM.dev.localPending 0 = false)
    ∧ sM.dev.localOk cM (localLanes cM { width := 4, d := 8, a := 7 }) 4 = false
    ∧ ((16 : Nat) ≤ 16 ∧ 0x1070 / 128 = (⟨false, 32⟩ : Line).n ∧ 0x1070 % 128 + 16 ≤ 128 ∧ (⟨false, 32⟩ : Line).host = false ∧ 15 < 16) := by
  refine ⟨wit_canIssueM, ?_, by decide +kernel⟩
  intro w hw
  have h : [({ width := 4, d := 8, a := 6 } : FmtM), { width := 4, d := 8, a := 7 }].all (fun w =>
      legalB sM cM (mUses 32 w 1 true true (loadSem w && w.hint == 0)) && legalB sM cM (mUses 32 w 1 true false (storeSem w && w.hint == 0))) = true := by
    decide +kernel
  have := List.all_eq_true.1 h w hw
  rw [Bool.and_eq_true] at this
  exact ⟨legal_of this.1, legal_of this.2⟩

def wG : FmtM := { width := 4, d := 8, a := 4 }
def tsG : List (Nat × Xl) := [(0, .dev 0x1000)]
def lineG : Line := ⟨false, 32⟩

theorem wit_global : (CanIssue sL1 g0 cM ∧ Legal sL1 cM (mUses 32 wG 2 true true (loadSem wG))
      ∧ sL1.dev.places 0 0x100 false true 4 (globalLanes cM wG) = .ok sL1.dev tsG ∧ tsG ≠ [] ∧ (∀ t ∈ tsG, t.2.line.isSome)
      ∧ sL1.dev.mustWait cM (cM.accessLanes 0 false) false 0 0 = false ∧ (sL1.dev.core 0).loads = [] ∧ (sL1.dev.core 0).outs = []
      ∧ ∀ t ∈ tsG, (sL1.dev.loadNow (sL1.dev.core 0) true 4 t.2).isSome)
    ∧ (CanIssue sM g0 cM ∧ Legal sM cM (mUses 32 { wG with scope := 2 } 2 true true (loadSem { wG with scope := 2 }))
      ∧ sM.dev.places 0 0x100 false true 4 (globalLanes cM { wG with scope := 2 }) = .ok sM.dev tsG
      ∧ linesOf 4 tsG = [(lineG, 1)] ∧ (∃ set, sM.dev.place 0 lineG = some (16, set) ∧ 16 ≠ 16 * 0 + 16 % 16
        ∧ (sM.dev.slice 0).findReplica set lineG = none) ∧ (sM.dev.slice 0).miss = [] ∧ (sM.dev.slice 0).freeEntry = some 0) :=
  ⟨⟨wit_canIssueL1, legal_of (by decide +kernel), rfl, by decide +kernel⟩,
    wit_canIssueM, legal_of (by decide +kernel), rfl, by decide +kernel, ⟨_, rfl, by decide, rfl⟩, by decide +kernel, by decide +kernel⟩

/-- Data for the load in flight. -/
theorem wit_deliver : (sLoad.dev.core (coreKey 0 0)).loads = [load0] ∧ sLoad.dev.group load0.gkey = some group0
    ∧ (∀ y ∈ load0.waiting, y.2.1 = false ∧ y.2.2 / 128 = 0) ∧ load0.waiting ≠ [] := by decide +kernel

theorem wit_globalStore : CanIssue sM g0 cM ∧ Legal sM cM (mUses 32 wG 2 true false (storeSem wG))
    ∧ sM.dev.places 0 0x100 true true 4 (globalLanes cM wG) = .ok sM.dev tsG ∧ sM.dev.partRuns 0 = true
    ∧ sM.dev.mustWait cM (cM.accessLanes 0 false) true 0 0 = false ∧ (∀ x ∈ linesOf 4 tsG, (sM.dev.core 0).writeBlocked x.1 = false) :=
  ⟨wit_canIssueM, legal_of (by decide +kernel), rfl, by decide +kernel⟩

theorem wit_otherAccesses :
    (CanIssue sL1 g0 cM ∧ Legal sL1 cM (mUses 32 { a := 4 } 2 false true true)
      ∧ sL1.dev.places 0 0x100 false false 1 (globalLanes cM { a := 4 }) = .ok sL1.dev tsG
      ∧ ∀ x ∈ linesOf 1 tsG, ((sL1.dev.core 0).l1Hit x.1.host x.1.n 15#4).isSome)
    ∧ (CanIssue sM g0 cM ∧ Legal sM cM (mUses 32 { width := 4, d := 8, ka := true, off16 := 0xFFC } 2 true true true)
      ∧ sM.dev.constReads cM 4 (globalLanes cM { width := 4, d := 8, ka := true, off16 := 0xFFC }) = (sM.dev, true, some [(0, 0)]))
    ∧ (0 < 4 ∧ 0xFFC % 4 = 0 ∧ 0xFFC + 4 ≤ 0x1000)
    ∧ (Legal sM cM (aUses 32 { uf := true, a := 4, b := 0 } { a := .reg 1, b := .reg 2, modOk := true, long := true, uni := true, onlyUni := true })
      ∧ cM.takers 0 true = [0] ∧ (groupM.readU 4).toNat % 2 ^ 32 % 8 = 0 ∧ sM.dev.localPlace cM 16 8 = some ⟨0, 0, 16⟩
      ∧ srcB groupM { uf := true, a := 4, b := 0 } 0 2 ≤ sM.dev.readLoc ⟨0, 0, 16⟩ 8
      ∧ sM.dev.readLoc ⟨0, 0, 16⟩ 8 < srcB groupM { uf := true, a := 4, b := 2 } 0 2)
    ∧ (Legal sM cM (aUses 32 { mod := 0x12 } { modOk := true }) ∧ cM.lanes 0 ≠ 0 ∧ sM.dev.localPending 0 = false
      ∧ sM.dev.unperformed cM (cM.lanes 0) 4 = false) :=
  ⟨⟨wit_canIssueL1, legal_of (by decide +kernel), rfl, by decide +kernel⟩, ⟨wit_canIssueM, legal_of (by decide +kernel), rfl⟩, by decide,
    ⟨legal_of (by decide +kernel), by decide +kernel⟩, legal_of (by decide +kernel), by decide +kernel⟩

/-- The state with a store of the group in flight. -/
def out0 : OutAccess := { id := 1, kind := .store, gkey := 0, q := 0, i := 0, lanes := 1, host := false, line := 32, sem := 0, scope := 3 }
def sOut : State := { dev := { devOf [(0, groupM)] with cores := [(0, { blocks := [block0], outs := [out0] })] } }
theorem wit_fenceWaits : CanIssue sOut g0 cM ∧ Legal sOut cM (aUses 32 { mod := 0x0E } { modOk := true }) ∧ sOut.dev.unperformed cM (cM.lanes 0) 3 = true :=
  ⟨by unfold CanIssue; decide +kernel, legal_of (by decide +kernel), by decide +kernel⟩

def atomOps : List AtomOp := [.add, .min, .max, .and, .or, .xor, .exch, .cas]

theorem wit_atomics : CanIssue sM g0 cM
    ∧ (∀ op ∈ atomOps, Legal sM cM (aUses 32 { mod := 0x200, d := 8, a := 6, b := 10 } (atomSpec op { mod := 0x200, d := 8, a := 6, b := 10 }))
        ∧ Legal sM cM (aUses 32 { d := 8, a := 4, b := 10 } (atomSpec op { d := 8, a := 4, b := 10 })))
    ∧ sM.dev.trapUncovered 0 = false
    ∧ (let w : FmtA := { mod := 0x200, d := 8, a := 6, b := 10 }
       let ls := atomAddrs cM w
       atomLocal w = true ∧ ls ≠ [] ∧ sM.dev.localOk cM ls (atomWidth (atomType w)) = true
        ∧ sM.dev.mustWait cM (cM.accessLanes 0 false) true (atomSem w) (atomScope w) = false ∧ sM.dev.localPending 0 = false)
    ∧ (let w : FmtA := { d := 8, a := 4, b := 10 }
       atomLocal w = false ∧ sM.dev.places 0 0x100 true false 4 (atomAddrs cM w) = .ok sM.dev tsG ∧ sM.dev.partRuns 0 = true
        ∧ sM.dev.mustWait cM (cM.accessLanes 0 false) true (atomSem w) (atomScope w) = false
        ∧ (∀ x ∈ linesOf 4 tsG, (sM.dev.core 0).readOn x.1 = false ∧ (sM.dev.core 0).outOn x.1 (fun _ => true) = false))
    ∧ (signed 32 0x80000000 < signed 32 0x7FFFFFFF ∧ (0xFFFFFFFF : Nat) % 2 ^ 32 = 0x1FFFFFFFF % 2 ^ 32 ∧ 124 + 4 ≤ 128) := by
  refine ⟨wit_canIssueM, ?_, by decide +kernel, by decide +kernel, ⟨by decide, rfl, by decide +kernel⟩, by decide +kernel⟩
  intro op hop
  have h : atomOps.all (fun op => legalB sM cM (aUses 32 { mod := 0x200, d := 8, a := 6, b := 10 } (atomSpec op { mod := 0x200, d := 8, a := 6, b := 10 }))
      && legalB sM cM (aUses 32 { d := 8, a := 4, b := 10 } (atomSpec op { d := 8, a := 4, b := 10 }))) = true := by decide +kernel
  have := List.all_eq_true.1 h op hop
  rw [Bool.and_eq_true] at this
  exact ⟨legal_of this.1, legal_of this.2⟩

/-- u0-u1 hold a descriptor without a fence, u8-u9 one out of range, u9 being 2^33. -/
def groupR : Group := { groupM with u := [(9, 0x200000000)] }
def cR : Ctx := ctxOf groupR path1
def sR : State := stOf [(0, groupR)]
def wR : FmtA := { a := 4, b := 8, c := 0, kc := true, mod := 2 }

theorem wit_reductions : CanIssue sR g0 cR
    ∧ Legal sR cR (aUses 32 wR { a := .reg 2, b := .reg (redRegs 2), c := .upair, modOk := true, uni := true })
    ∧ (cR.takers 0 false).map (fun l => (l, srcA groupR wR l 2)) = [(0, 0x1000)]
    ∧ sR.dev.descr 0 0x100 (redClass .add 2) (groupR.readU 0).toNat (groupR.readU 1).toNat
        = .ok sR.dev { cls := redClass .add 2, count := 0, fenceEn := false, fence := 0 }
    ∧ sR.dev.places 0 0x100 true false (4 * redRegs 2) [(0, 0x1000)] = .ok sR.dev tsG ∧ sR.dev.partRuns 0 = true
    ∧ sR.dev.mustWait cR (cR.accessLanes 0 false) true 0 0 = false ∧ (∀ y ∈ linesOf 4 tsG, (sR.dev.core 0).writeBlocked y.1 = false)
    ∧ (Legal sR cR (aUses 32 { wR with c := 8 } { a := .reg 2, b := .reg (redRegs 2), c := .upair, modOk := true, uni := true })
        ∧ 2 ^ 33 ≤ (groupR.readU (8 + 1)).toNat)
    ∧ (Legal sR cR (aUses 32 { a := 4 } { a := .reg 2, modOk := true, uni := true })
        ∧ sR.dev.places 0 0x100 true false 1 [(0, 0x1000)] = .ok sR.dev tsG ∧ ∀ y ∈ linesOf 1 tsG, (sR.dev.core 0).writeBlocked y.1 = false) :=
  ⟨by unfold CanIssue; decide +kernel, legal_of (by decide +kernel), by decide +kernel, rfl, rfl, by decide +kernel, by decide +kernel,
    by decide +kernel, ⟨legal_of (by decide +kernel), by decide +kernel⟩, legal_of (by decide +kernel), rfl, by decide +kernel⟩

/-- A block of 128 KiB, so that copies of 16 and of 65,536 bytes fit: u4 the counter's place, u6 the local place, u2 the
global one, u10-u14 lengths. -/
def block128 : Block := { block0 with lmem := 128 }
def groupB : Group := { groupM with u := [(2, 0x1000), (4, 16), (6, 32), (10, 16), (11, 65536), (12, 15), (13, 65552)] }
def cB : Ctx := ctxOf groupB path1
def devB : Dev := { devOf [(0, groupB)] with cores := [(0, { blocks := [block128] })] }
def sB : State := { dev := devB }
def wB (c : BitVec 8) : FmtA := { uf := true, d := 4, a := 6, b := 2, c := c }

theorem wit_bulk : CanIssue sB g0 cB ∧ (∀ c ∈ [(10 : BitVec 8), 11, 12, 13, 14], Legal sB cB (aUses 32 (wB c) (bcopySpec (wB c))))
    ∧ cB.takers 0 true = [0]
    ∧ (∀ len ∈ [16, 65536], len % 16 = 0 ∧ 16 ≤ len ∧ len ≤ 65536 ∧ sB.dev.localPlace cB 32 len = some ⟨0, 0, 32⟩)
    ∧ srcB groupB (wB 10) 0 2 % 16 = 0 ∧ sB.dev.localPlace cB 16 8 = some ⟨0, 0, 16⟩
    ∧ (∃ ts, sB.dev.places 0 0x100 true false 1 ((pagePieces 18 0x1000 65536).map (fun x => (0, x.1))) = .ok sB.dev ts)
    ∧ (∃ ts, sB.dev.places 0 0x100 false false 1 ((pagePieces 18 0x1000 16).map (fun x => (0, x.1))) = .ok sB.dev ts)
    ∧ sB.dev.mustWait cB path1.mask true 0 0 = false ∧ sB.dev.mustWait cB path1.mask false 0 0 = false ∧ sB.dev.localPending 0 = false
    ∧ ((groupB.readU 12).toNat % 16 ≠ 0 ∧ (groupB.readU 14).toNat < 16 ∧ 65536 < (groupB.readU 13).toNat) := by
  refine ⟨by unfold CanIssue; decide +kernel, ?_, by decide +kernel, by decide +kernel, by decide +kernel, by decide +kernel, ⟨_, rfl⟩, ⟨_, rfl⟩,
    by decide +kernel⟩
  intro c hc
  have h : [(10 : BitVec 8), 11, 12, 13, 14].all (fun c => legalB sB cB (aUses 32 (wB c) (bcopySpec (wB c)))) = true := by decide +kernel
  exact legal_of (List.all_eq_true.1 h c hc)

def copy0 : BulkCopy :=
  { id := 1, gkey := 0, origin := 0, part := 0, block := 0, loc := 32, toLocal := true, segs := [], cblock := 0, counter := 16, q := 0, i := 0 }
def sCopy : State := { dev := { devB with cores := [(0, { blocks := [block128], copies := [copy0] })] } }
theorem wit_bulkComplete : (sCopy.dev.core (coreKey 0 0)).copies = [copy0] ∧ copy0.origin = groupKey 0 0 0 0 ∧ sCopy.dev.partRuns copy0.part = true
    ∧ sCopy.dev.coresIssue = true ∧ copy0.segs = [] ∧ (sCopy.dev.core (copy0.block / 32)).block (copy0.block % 32) = some block128
    ∧ block128.ended = false := by decide +kernel

/-! ## The matrix class -/

/-- u0 names the tile of 16 rows and columns at 0, u1 local rows of 32 bytes, u2 nothing, u3 is out of range, u4 a sub-tile of
pitch 16, u5 64 bytes to clear. -/
def groupX : Group := { group0 with u := [(1, 0x2000000), (3, 0x2000000), (4, 0x100000), (5, 0x400000)] }
def sX : State := stOf [(0, groupX)]
def cX : Ctx := ctxOf groupX path0

theorem wit_matrixIssue : CanIssue sX g0 cX ∧ MatrixReady sX cX ∧ Octet cX 0 8 ∧ Octet cX 8 5 ∧ Octet cX 28 4 ∧ Octet cX 24 8
    ∧ (∀ cls, cls < 7 → matModOk cls 0 = true ∧ matModOk cls 0x100 = true)
    ∧ (∀ m ∈ [(0 : BitVec 11), 0x400, 0x500], matModOk (mmsCls m) m = true)
    ∧ (mmsOk groupX (sX.dev.lmemOf cX) 0 (groupX.readU 0) (groupX.readU 1) (groupX.readU 1) 0 = true
        ∧ mmsOk groupX (sX.dev.lmemOf cX) 0x500 (groupX.readU 0) (groupX.readU 1) (groupX.readU 1) (groupX.readU 2) = true
        ∧ mmsOk groupX (sX.dev.lmemOf cX) 0 (groupX.readU 3) (groupX.readU 1) (groupX.readU 1) 0 = false)
    ∧ (smxMaxOk groupX 0 (groupX.readU 0) (groupX.readU 0) (groupX.readU 0) = true
        ∧ smxMaxOk groupX 1 (groupX.readU 0) (groupX.readU 3) (groupX.readU 0) = false)
    ∧ (∀ m ∈ [(0 : BitVec 11), 3, 8, 11], smxSumOk groupX (sX.dev.lmemOf cX) m (groupX.readU 1) (groupX.readU 0) (groupX.readU 0) = true)
    ∧ ((subTile groupX (groupX.readU 4)).isSome ∧ subTile groupX (groupX.readU 0) = none ∧ (zeroRange groupX (groupX.readU 5)).isSome) := by
  refine ⟨by unfold CanIssue; decide +kernel, by unfold MatrixReady; decide +kernel, by unfold Octet; decide, by unfold Octet; decide,
    by unfold Octet; decide, by unfold Octet; decide, by decide +kernel⟩

def entryX : MatEntry := { gkey := 0, work := .accZero 0x400000 }
def sWork : State := { dev := { devOf [(0, groupX)] with munits := [(0, [entryX])] } }
theorem wit_matrixWork : sWork.dev.munit (subKey 0 0 0) = [entryX] ∧ entryX.gkey / 16 = subKey 0 0 0 ∧ sWork.dev.group entryX.gkey = some groupX
    ∧ sWork.dev.partOfStack 0 = some 0 ∧ sWork.dev.partRuns 0 = true ∧ sWork.dev.coresIssue = true ∧ sWork.dev.blockOf 0 groupX = some block0
    ∧ groupX.ended = false ∧ groupX.stepping = none ∧ (∃ q ∈ groupX.paths, q.status = .running)
    ∧ (subTile groupX 0x100000).isSome ∧ (zeroRange groupX 0x400000).isSome := by decide +kernel

/-! ## Debugging, kernels, tasks, queues -/

theorem pair_of {α β : Type} {x : α × β} {b : β} (h : x.2 = b) : x = (x.1, b) := by rw [← h]
theorem triple_of {α β γ : Type} {x : α × β × γ} {b : β} (h : x.2.1 = b) : x = (x.1, b, x.2.2) := by rw [← h]

/-- A task descriptor: class, aux16, aux32 and the four body words (11 R345). -/
def tdesc (cls aux16 aux32 b0 b1 b2 b3 : Nat) : Nat :=
  cls + aux16 <<< 0x90 + aux32 <<< 0xA0 + b0 <<< 0x300 + b1 <<< 0x340 + b2 <<< 0x380 + b3 <<< 0x3C0
def taskOf (cls aux16 aux32 b0 b1 b2 b3 : Nat) : Task := { q := 0, i := 0, desc := tdesc cls aux16 aux32 b0 b1 b2 b3, state := .released, head := true }
def queue0 : Queue := { ringVa := 0x2000, log2 := 4, state := .active, fn := 0x100, kernel := true, producer := 1, fetched := 1, binding := 0x80 }
/-- The device with one queue and one task, released to its engine. -/
def devT (t : Task) : Dev := { dev0 with queues := [(0, queue0)], tasks := [t] }
def sTask (t : Task) : State := { dev := devT t }

theorem wit_works : Works (sTask (taskOf 0x02 0 0 0 0 0 0)) 0 0 0x02 0 (taskOf 0x02 0 0 0 0 0 0)
    ∧ (taskOf 0x02 0 0 0 0 0 0).bodyZero [0, 1, 2, 3] = true := by unfold Works; decide +kernel

def ring0 : DebugRing := { base := 0x4000, k := 2 }
def runD : Run := { run0 with debug := true }
def sBkpt : State := { dev := { devOf [(0, group0)] with runs := [runD], rings := [(0x100, ring0)], queues := [(0, queue0)] } }
theorem wit_bkpt : (CanIssue s0 g0 c0 ∧ Legal s0 c0 (iUses 32 { imm16 := 7 } none none) ∧ c0.run.debug = false)
    ∧ (CanIssue sBkpt g0 { c0 with run := runD } ∧ Legal sBkpt { c0 with run := runD } (iUses 32 { imm16 := 7 } none none)
        ∧ Alone { c0 with run := runD } ∧ c0.lanes 0 ≠ 0 ∧ runD.debug = true ∧ runD.fn = sBkpt.dev.fnOfQueue 0 ∧ sBkpt.dev.ringOf runD.fn = some ring0) :=
  ⟨⟨wit_canIssue, legal_of (by decide +kernel), rfl⟩, by unfold CanIssue; decide +kernel, legal_of (by decide +kernel), ⟨rfl, rfl, rfl⟩,
    by decide +kernel⟩

def ring1 : DebugRing := { ring0 with pending := [1] }
def sRing : State := { dev := { dev0 with rings := [(0x100, ring1)] } }
theorem wit_pendingRecord : ∃ d1 d2 d3, sRing.dev.partOfFn 0x100 = some 0 ∧ sRing.dev.partRuns 0 = true ∧ sRing.dev.ringOf 0x100 = some ring1
    ∧ ring1.pending = [1] ∧ sRing.dev.cpRead 0 0x100 (0x4000 + 8) 8 = (d1, .ok 0) ∧ ring1.producer < 0 + 2 ^ ring1.k
    ∧ d1.cpWrite 0 0x100 (0x4000 + 64 + 64 * (ring1.producer % 2 ^ ring1.k)) 64 (putBytes 1 2 2 ring1.producer) = (d2, .ok 0)
    ∧ d2.cpWrite 0 0x100 0x4000 8 (ring1.producer + 1) = (d3, .ok 0) :=
  ⟨_, _, _, by decide +kernel, by decide +kernel, by decide +kernel, rfl, pair_of (by decide +kernel), by decide, pair_of (by decide +kernel),
    pair_of (by decide +kernel)⟩

/-- DEBUG_ATTACH with the smallest and the largest ring. -/
theorem wit_attach : ∀ k ∈ [6, 16], ∃ d1 v ps, let t := taskOf 0x48 k 0 0x4000 0 0 0
    Works (sTask t) 0 0 0x48 0 t ∧ 6 ≤ t.aux16 ∧ t.aux16 ≤ 16 ∧ t.aux32 = 0 ∧ t.body 0 % 64 = 0 ∧ t.bodyZero [1, 2, 3] = true
    ∧ (sTask t).dev.range 0 ((sTask t).dev.fnOfQueue 0) true (t.body 0) (64 + 64 * 2 ^ t.aux16) = (d1, .ok v, ps)
    ∧ (d1.ringOf ((sTask t).dev.fnOfQueue 0) = none) := by
  intro k hk
  simp only [List.mem_cons, List.not_mem_nil, or_false] at hk
  rcases hk with rfl | rfl
  · exact ⟨_, 0, _, by unfold Works; decide +kernel, by decide +kernel, by decide +kernel, by decide +kernel, by decide +kernel, by decide +kernel,
      triple_of (by decide +kernel), by decide +kernel⟩
  · exact ⟨_, 0, _, by unfold Works; decide +kernel, by decide +kernel, by decide +kernel, by decide +kernel, by decide +kernel, by decide +kernel,
      triple_of (by decide +kernel), by decide +kernel⟩

/-- A halted group, at whose pc a NOP stands. -/
def groupH : Group := { group0 with halted := some { active := 0xFFFFFFFF } }
def devH (t : Task) : Dev :=
  { devT t with groups := [(0, groupH)], runs := [runD], cores := [(0, { blocks := [block0] })], rings := [(0x100, ring0)], mem := [(0x100, 0x80), (0x101, 2)] }
def sH (t : Task) : State := { dev := devH t }

theorem view_of {x : Option (Nat ⊕ View)} (b : View → Bool) (h : (match x with | some (.inr v) => b v | _ => false) = true) :
    ∃ v, x = some (.inr v) ∧ b v = true := by
  split at h
  · exact ⟨_, rfl, h⟩
  · cases h

theorem fetch_of {x : Fetch} {w imm : DWord} (b : Dev → Bool) (h : (match x with | .ok e w' imm' => b e && w' == w && imm' == imm | _ => false) = true) :
    ∃ e, x = .ok e w imm ∧ b e = true := by
  split at h
  · simp only [Bool.and_eq_true, beq_iff_eq] at h
    obtain ⟨⟨h1, rfl⟩, rfl⟩ := h
    exact ⟨_, rfl, h1⟩
  · cases h

def tRead : Task := taskOf 0x49 0 0 0x6000 (4 * 2 ^ 32) 0 0
theorem wit_debugRead : Works (sH tRead) 0 0 0x49 0 tRead ∧ ∃ v, (sH tRead).dev.debugView 0 tRead = some (.inr v)
    ∧ ((sH tRead).dev.cpWriteFor 0 ((sH tRead).dev.fnOfQueue 0) tRead.acct (tRead.body 1 / 2 ^ 32 / 128 + 2) (tRead.body 0) (tRead.body 1 / 2 ^ 32)
        ((sH tRead).dev.regionRead v tRead.aux16 (tRead.body 1 % 2 ^ 32) (tRead.body 1 / 2 ^ 32))).2 = .ok 0 := by
  refine ⟨by unfold Works; decide +kernel, ?_⟩
  obtain ⟨v, h, hb⟩ := view_of (x := (sH tRead).dev.debugView 0 tRead)
    (fun v => decide (((sH tRead).dev.cpWriteFor 0 ((sH tRead).dev.fnOfQueue 0) tRead.acct (tRead.body 1 / 2 ^ 32 / 128 + 2) (tRead.body 0)
      (tRead.body 1 / 2 ^ 32) ((sH tRead).dev.regionRead v tRead.aux16 (tRead.body 1 % 2 ^ 32) (tRead.body 1 / 2 ^ 32))).2 = .ok 0)) (by decide +kernel)
  exact ⟨v, h, of_decide_eq_true hb⟩

def tWrite : Task := taskOf 0x4A 0 0 0x6000 (4 * 2 ^ 32) 0 0
theorem wit_debugWrite : Works (sH tWrite) 0 0 0x4A 0 tWrite ∧ (∃ v, (sH tWrite).dev.debugView 0 tWrite = some (.inr v)) ∧ tWrite.aux16 = 0
    ∧ tWrite.body 1 = 4 * 2 ^ 32 ∧ ((sH tWrite).dev.cpRead 0 ((sH tWrite).dev.fnOfQueue 0) (tWrite.body 0) 4 tWrite.acct).2 = .ok 0 := by
  refine ⟨by unfold Works; decide +kernel, ?_, by decide +kernel⟩
  obtain ⟨v, h, -⟩ := view_of (x := (sH tWrite).dev.debugView 0 tWrite) (fun _ => true) (by decide +kernel)
  exact ⟨v, h⟩

def tStep : Task := taskOf 0x4B 0 0 0 0 0 0
def cD : Ctx := { c0 with run := runD }
theorem wit_debugStep : Works (sH tStep) 0 0 0x4B 0 tStep ∧ (sH tStep).dev.debugGroup 0 tStep = .inr (0, groupH) ∧ groupH.paths = [path0]
    ∧ path0.status = .running ∧ path0.points = [] ∧ groupH.points = [] ∧ groupH.stepping = none ∧ groupH.ended = false ∧ gkeyOf g0 = 0
    ∧ (sH tStep).dev.matrixBusy 0 = false
    ∧ (let d0 := ((sH tStep).dev.setGroup 0 { groupH with halted := none }).bumpGen 0
       d0.ctx g0 = some cD ∧ cD.path.pc % 8 = 0 ∧ cD.path.pc < 2 ^ 56 ∧ (∃ e, d0.fetch cD = .ok e 0x280 0 ∧ (!e.interlocked cD []) = true)
        ∧ decodeIns g0 0x280 0 = some (.nop g0 {}) ∧ aUses 32 {} { modOk := true } = some []) := by
  refine ⟨by unfold Works; decide +kernel, by decide +kernel, rfl, rfl, rfl, rfl, rfl, rfl, rfl, by decide +kernel,
    by decide +kernel, by decide, by decide, fetch_of _ (by decide +kernel), rfl, by decide⟩

theorem wit_debugOthers :
    (let t := taskOf 0x4C 0 0 0 0 0 0
     Works (sH t) 0 0 0x4C 0 t ∧ (sH t).dev.debugGroup 0 t = .inr (0, groupH))
    ∧ (let t := taskOf 0x4D 0 0 0 0 0 0
       Works (sH t) 0 0 0x4D 0 t ∧ (sH t).dev.debugGroup 0 t = .inr (0, groupH) ∧ (sH t).dev.blockOf 0 groupH = some block0
        ∧ ∀ m ∈ (sH t).dev.munit 0, m.gkey ≠ 0)
    ∧ (let t := taskOf 0x4E 0 0 0 0 0 0
       Works (sH t) 0 0 0x4E 0 t ∧ t.bodyZero [0, 1, 2, 3] = true ∧ ((sH t).dev.ringOf 0x100).isSome
        ∧ Works (sTask t) 0 0 0x4E 0 t ∧ (sTask t).dev.ringOf ((sTask t).dev.fnOfQueue 0) = none) := by
  unfold Works; decide +kernel

/-- A kernel descriptor at 0x7000: entry 0x100, blocks of 32 threads, 8 registers. The INDIRECT block at 0x7100 is all zeros. -/
def devK (t : Task) : Dev :=
  { devT t with mem := [(0x7001, 1), (0x7014, 31)], conf := { parts := [some { first := 0, lodes := 4, indirect := true }, none, none, none] } }
def sK (t : Task) : State := { dev := devK t }
def tDirect : Task := taskOf 0x01 0 0 0x7000 0 0 0
def tIndirect : Task := { tDirect with desc := tdesc 0x401 0 0 0x7000 0x7100 0 0 }

theorem wit_kernel : (∀ t ∈ [tDirect, tIndirect], Works (sK t) 0 0 clsKernel 0 t ∧ (sK t).dev.run 0 0 = none
      ∧ ((devK t).cpRead 0 ((devK t).fnOfQueue 0) (t.body 0) 64 t.acct).2 = .ok (0x100 + 31 <<< 160))
    ∧ (∃ l, (((devK tDirect).cpRead 0 0x100 0x7000 64).1.readLaunch 0 tDirect).2 = (some l, .ok 0) ∧ l.gx * l.gy * l.gz = 1
        ∧ kernelStatus tDirect (0x100 + 31 <<< 160) l ((devK tDirect).mkRun 0 tDirect (0x100 + 31 <<< 160) l) = 0)
    ∧ ((∃ pc, (devK tIndirect).pconf 0 = some pc ∧ pc.indirect = true)
        ∧ ∃ l, (((devK tIndirect).cpRead 0 0x100 0x7000 64).1.readLaunch 0 tIndirect).2 = (some l, .ok 0) ∧ l.gx * l.gy * l.gz = 0
          ∧ kernelStatus tIndirect (0x100 + 31 <<< 160) l ((devK tIndirect).mkRun 0 tIndirect (0x100 + 31 <<< 160) l) = 0) :=
  ⟨by unfold Works; decide +kernel, ⟨⟨1, 1, 1, 0, 0, false⟩, by decide +kernel⟩, ⟨_, rfl, rfl⟩, ⟨⟨0, 0, 0, 0, 0, false⟩, by decide +kernel⟩⟩

/-- The task of `run0` with no block placed. -/
def runP : Run := { run0 with live := 0, lmem := 4, nv := 8 }
def sPlace : State := { dev := { devT task0 with runs := [runP] } }
theorem wit_blockPlace : sPlace.dev.run 0 0 = some runP ∧ sPlace.dev.partRuns 0 = true ∧ sPlace.dev.stage < 3 ∧ sPlace.dev.faults.stopped = false
    ∧ runP.offers = true ∧ sPlace.dev.heldBack sPlace.fuses runP = false ∧ runP.csize = 1 ∧ runP.threads ≤ 32 ∧ 0 < runP.threads
    ∧ (sPlace.dev.candidates sPlace.fuses runP).head? = some [0] ∧ sPlace.dev.coreFits runP 0 = true := by decide +kernel

/-- A NOP whose work is over, with a completion record at 0x6000 or without, and one that failed. -/
def tDone (flags st : Nat) : Task := { taskOf 0 0 0 0 0 0 0 with desc := 0x02 + flags <<< 8 + 0x6000 <<< 0xC0, state := .done st 0 }
def queueR : Queue := { queue0 with retired := 0, producer := 1, fetched := 1, timeout := 1 }
def sEnd (t : Task) : State := { dev := { dev0 with queues := [(0, queueR)], tasks := [t] } }

theorem wit_taskDone : (∀ f ∈ [0, 1], let t := tDone f 0
      (sEnd t).dev.tasks = [t] ∧ (sEnd t).dev.partOfQueue 0 = some 0 ∧ (sEnd t).dev.partRuns 0 = true ∧ (sEnd t).dev.coresIssue = true
      ∧ (sEnd t).dev.ending t = some (0, 0) ∧ t.stage = 0 ∧ t.fop < 4 ∧ (sEnd t).dev.queue 0 = queueR ∧ queueR.state = .active ∧ queueR.retired = 0
      ∧ queueR.ended = [] ∧ completes 0 t.cls false = true
      ∧ (((sEnd t).dev.setTask t).cplRecord 0 { t with stage := 2 } 0 0).2 = .ok 0)
    ∧ (let t := tDone 0 stBadDescriptor
       (sEnd t).dev.ending t = some (stBadDescriptor, 0) ∧ completes stBadDescriptor t.cls false = false ∧ stBadDescriptor ≠ stSquashed ∧ t.cpl = false) := by
  decide +kernel

def tLate : Task := { taskOf 0x02 0 0 0 0 0 0 with count := 1 }
theorem wit_timeout : (sEnd tLate).dev.tasks = [tLate] ∧ (sEnd tLate).dev.expired 0 0 = some (0, tLate) ∧ tLate.cpl = false
    ∧ (sEnd tLate).dev.blocksOfTask 0 0 = [] ∧ (sEnd tLate).dev.seif.colls = [] ∧ ((sEnd tLate).dev.queue 0).state = .active := by decide +kernel

/-- Doorbells of a core: at the ends of the ranges of the producer's values, and a free bootstrap queue. -/
def sBell (x : Queue) : State := { dev := { dev0 with queues := [(0, x)] } }
def queueBoot : Queue := { bootRing := 0x0700000000002000 }
theorem wit_doorbells : (sBell queue0).dev.bellTarget (.core 0 0) 0 0 = some 0 ∧ (sBell queue0).dev.bellTaken 0 = true ∧ (sBell queue0).dev.partOfQueue 0 = some 0
    ∧ (queue0.state = .active ∧ queue0.producer < 2 ∧ 16 ≤ queue0.retired + 2 ^ queue0.log2 ∧ 1 ≤ queue0.producer ∧ queue0.retired + 2 ^ queue0.log2 < 17)
    ∧ ((sBell queueBoot).dev.bellTarget (.core 0 0) 0 0 = some 0 ∧ (sBell queueBoot).dev.bellTaken 0 = true ∧ queueBoot.state = .free
      ∧ (sBell queueBoot).dev.isBootQueue 0 = true ∧ (0x8000000100000080 : Nat) / 2 ^ 63 = 1
      ∧ (sBell queueBoot).dev.createStatus 0 (0x8000000100000080 / 2 ^ 60 % 8 == 0) (BitVec.ofNat 32 0x8000000100000080) (0x8000000100000080 / 2 ^ 32 % 2 ^ 26) 0x2000 7 = 0
      ∧ (sBell queueBoot).dev.createStatus 0 (0x8000000000000080 / 2 ^ 60 % 8 == 0) (BitVec.ofNat 32 0x8000000000000080) 0 0x2000 7 ≠ 0) := by decide +kernel

def queueF : Queue := { queue0 with fetched := 0, producer := 1 }
def sRead : State := { dev := { dev0 with queues := [(0, queueF)], mem := [(0x2000, 2)] } }
theorem wit_descriptorRead : sRead.dev.tasks = [] ∧ sRead.dev.partOfQueue 0 = some 0 ∧ sRead.dev.fetches 0 = true ∧ sRead.dev.stage < 3
    ∧ sRead.dev.queue 0 = queueF ∧ queueF.fetched < queueF.producer ∧ queueF.fetched < queueF.retired + 256 ∧ queueF.ended = []
    ∧ bindByte queueF.binding 0 / 128 % 2 = 1 ∧ 0 < sRead.dev.timerRemainder 0 ∧ sRead.dev.ledger.page.tickets.length < 65536
    ∧ (sRead.dev.cpRead 0 (sRead.dev.fnOfQueue 0) (queueF.ringVa + 128 * (queueF.fetched % 2 ^ queueF.log2)) 128).2 = .ok 0x02 := by decide +kernel

/-- A head that waits for nothing, and one that waits for a word to reach 1. -/
def tHead (fop val : Nat) : Task := { taskOf 0 0 0 0 0 0 0 with desc := 0x02 + fop <<< 24 + 0x6000 <<< 0x100 + val <<< 0x140, state := .fetched }
def sHead (t : Task) : State := { dev := { dev0 with queues := [(0, queue0)], tasks := [t] } }
theorem wit_fencePoll : (∀ t ∈ [tHead 0 0, tHead 1 0, tHead 1 1], (sHead t).dev.tasks = [t] ∧ t.slot = 0 ∧ (sHead t).dev.fetches 0 = true ∧ (sHead t).dev.stage < 3
      ∧ t.state = .fetched ∧ t.head = true ∧ t.timer = none ∧ (sHead t).dev.depsMet t = true)
    ∧ (∀ t ∈ [tHead 0 0, tHead 1 0], ((sHead t).dev.fences 0 t).2 = .met ∧ (sHead t).dev.headWait 0 t = 0)
    ∧ ((sHead (tHead 1 1)).dev.fences 0 (tHead 1 1)).2 = .unmet := by decide +kernel

/-- QUEUE_CREATE of queue 1 with a good and a bad timeout, and of queue 0, which exists. -/
def tCreate (target timeout : Nat) : Task := taskOf 0x40 target timeout 0x2000 0 (0x80 + 6 <<< 32) 0
theorem wit_queueCreate : (∀ t ∈ [tCreate 1 1, tCreate 1 60000000, tCreate 1 0, tCreate 0 1], Works (sTask t) 0 0 clsQueueCreate 0 t ∧ t.body 3 = 0
      ∧ (sTask t).dev.sameFn 0 t.aux16 = true)
    ∧ ((sTask (tCreate 1 1)).dev.queue 1).state = .free ∧ ((sTask (tCreate 0 1)).dev.queue 0).state ≠ .free
    ∧ (∀ n ∈ [1, 60000000], (sTask (tCreate 1 n)).dev.createStatus 0 ((0x80 + 6 <<< 32) / 2 ^ 43 == 0) 0x80 n 0x2000 6 = 0)
    ∧ (sTask (tCreate 1 0)).dev.createStatus 0 ((0x80 + 6 <<< 32) / 2 ^ 43 == 0) 0x80 0 0x2000 6 ≠ 0 := by unfold Works; decide +kernel

/-- QUEUE_DESTROY of queue 1, and of its own queue; the drain of queue 1. -/
def tDestroy (target : Nat) : Task := taskOf 0x41 0 target 0 0 0 0
def queue1 : Queue := { queue0 with producer := 3, fetched := 1 }
def sDestroy (t : Task) (x : Queue) : State := { dev := { dev0 with queues := [(0, queue0), (1, x)], tasks := [t] } }
theorem wit_queueDestroy :
    (∀ n ∈ [0, 1], Works (sDestroy (tDestroy n) queue1) 0 0 clsQueueDestroy 0 (tDestroy n) ∧ (tDestroy n).work = .none ∧ (tDestroy n).aux16 = 0
      ∧ (tDestroy n).bodyZero [0, 1, 2, 3] = true)
    ∧ ((sDestroy (tDestroy 1) queue1).dev.sameFn 0 1 = true ∧ (tDestroy 1).aux32 ≠ 0 ∧ queue1.state = .active
      ∧ (sDestroy (tDestroy 1) queue1).dev.haltedBlocks 1 = [] ∧ ∀ y ∈ (sDestroy (tDestroy 1) queue1).dev.tasks, y.q ≠ 1)
    ∧ (let t : Task := { tDestroy 1 with work := .destroy 1 2 0 0 0 }
       let s := sDestroy t { queue1 with state := .destroying }
       s.dev.partOfQueue 1 = some 0 ∧ s.dev.partRuns 0 = true ∧ (s.dev.queue 1).state = .destroying ∧ (∀ y ∈ s.dev.tasks, y.q ≠ 1)
        ∧ s.dev.task 0 0 = some t ∧ t.work = .destroy 1 2 0 0 0) := by unfold Works; decide +kernel

/-- Line 32 stands in way 0 of its home, slice 16; one way of each set may be pinned, or none. -/
def way0 : Way := { line := ⟨false, 32⟩, valid := 15 }
def devPin (t : Task) (w : Way) (quota : Nat) : Dev :=
  { devT t with conf := { parts := [some { first := 0, lodes := 4, pinWays := quota }, none, none, none] }, slices := [(16, { ways := [(0, w)] })] }
def tPin (cls : Nat) : Task := taskOf cls 0 0 0x1000 128 0 0
theorem wit_pins : (∀ x ∈ [(0x42, way0, 1), (0x42, way0, 0), (0x43, { way0 with pinned := true }, 1)],
      let d := devPin (tPin x.1) x.2.1 x.2.2
      let t := tPin x.1
      Works { dev := d } 0 0 x.1 0 t ∧ t.aux16 = 0 ∧ t.aux32 = 0 ∧ t.bodyZero [2, 3] = true ∧ t.work = .none ∧ (d.pinRange 0 t).2 = (.ok 0, [32])
      ∧ (d.pinRange 0 t).1.place 0 ⟨false, 32⟩ = some (16, 0) ∧ ((d.pinRange 0 t).1.slice 16).findWay 0 (d.homeWays 0) ⟨false, 32⟩ = some (0, x.2.1))
    ∧ (devPin (tPin 0x42) way0 1).pinExceeds 0 [32] = false ∧ (devPin (tPin 0x42) way0 0).pinExceeds 0 [32] = true := by
  unfold Works; decide +kernel

def ticket0 : Ticket := { fn := 0x100, num := 1, tag := 0 }
def tTag : Task := taskOf 0x44 0 0 0 0 0 0
def sTag (l : List Ticket) : State := { dev := { devT tTag with ledger := { page := { tickets := l } } } }
theorem wit_tagClose : (∀ l ∈ [[ticket0], []], Works (sTag l) 0 0 clsTagClose 0 tTag) ∧ tTag.work = .none ∧ tTag.bodyZero [0, 1, 2, 3] = true
    ∧ (sTag [ticket0]).dev.taggedAccount ((sTag [ticket0]).dev.fnOfQueue 0) tTag.tag = some ticket0 ∧ ticket0 ∈ (sTag [ticket0]).dev.ledger.page.tickets
    ∧ (sTag []).dev.taggedAccount ((sTag []).dev.fnOfQueue 0) tTag.tag = none := by unfold Works; decide +kernel

/-- A COPY of one whole line, a COPY_2D of one row of 16 bytes up to a line's end, a FILL of 8 bytes. -/
def tCopy : Task := taskOf 0x10 0 0 0x1000 0x2080 128 0
def tCopy2d : Task := taskOf 0x11 0 16 0x1070 0x2080 (16 + 16 <<< 32) 1
def tFill : Task := taskOf 0x12 0 0 0x1000 8 5 0
theorem wit_copies :
    (Works (sTask tCopy) 0 0 0x10 0 tCopy ∧ tCopy.aux16 = 0 ∧ tCopy.work = .none ∧ tCopy.aux32 = 0 ∧ tCopy.body 2 = 128 ∧ tCopy.body 3 = 0
      ∧ tCopy.body 0 % 128 + 128 ≤ 128 ∧ tCopy.body 1 % 128 + 128 ≤ 128 ∧ tCopy.body 0 + 128 ≤ tCopy.body 1)
    ∧ (Works (sTask tCopy2d) 0 0 0x11 0 tCopy2d ∧ tCopy2d.aux16 = 0 ∧ tCopy2d.work = .none ∧ tCopy2d.aux32 = 16 ∧ tCopy2d.body 3 = 1
      ∧ 16 ≤ tCopy2d.body 2 % 2 ^ 32 ∧ 16 ≤ tCopy2d.body 2 / 2 ^ 32 ∧ tCopy2d.body 0 % 128 + 16 ≤ 128)
    ∧ ((sTask tCopy).dev.translate 0 0x100 0x1000 false).2 = .dev 0x1000 ∧ ((sTask tCopy).dev.translate 0 0x100 0x2080 true).2 = .dev 0x2080
    ∧ (sTask tCopy).dev.peek 0 ⟨false, 0x1000 / 128⟩ 0 128 = some 0 ∧ (sTask tCopy).dev.canWrite 0 ⟨false, 0x2080 / 128⟩ = true
    ∧ (Works (sTask tFill) 0 0 0x12 0 tFill ∧ tFill.aux16 = 0 ∧ tFill.aux32 = 0 ∧ tFill.body 1 = 8 ∧ tFill.body 3 = 0 ∧ tFill.body 0 % 8 = 0) := by
  unfold Works; decide +kernel

/-- A COPY_REDUCE of two F32 elements of class ADD, whose contribution goes to line 32. -/
def tReduce : Task := taskOf 0x13 RedClass.addF.code 2 0x3000 0x1000 8 0
theorem wit_copyReduce : Works (sTask tReduce) 0 0 0x13 0 tReduce ∧ tReduce.work = .none ∧ RedClass.ofCode (tReduce.aux16 % 256) = some .addF
    ∧ tReduce.aux16 / 2 ^ 11 = 0 ∧ redTypeOk .addF 0 = true ∧ tReduce.body 2 = redSrcWidth 0 * 2 ∧ tReduce.body 1 + 2 * 4 ≤ tReduce.body 0
    ∧ tReduce.body 1 % 128 + 2 * 4 ≤ 128
    ∧ (sTask tReduce).dev.descr 0 0x100 .addF 0 2 = .ok (sTask tReduce).dev { cls := .addF, count := 2, fenceEn := false, fence := 0 }
    ∧ ((sTask tReduce).dev.range 0 0x100 false 0x3000 8).2.1 = .ok 0 ∧ ((sTask tReduce).dev.range 0 0x100 true 0x1000 8).2.1 = .ok 0
    ∧ ((sTask tReduce).dev.cpRead 0 0x100 0x3000 8 tReduce.acct).2 = .ok 0
    ∧ ((sTask tReduce).dev.cpRead 0 0x100 0x3000 8 tReduce.acct).1.net = (sTask tReduce).dev.net
    ∧ ((sTask tReduce).dev.cpRead 0 0x100 0x3000 8 tReduce.acct).1.homeSlice 0 ⟨false, 32⟩ = some 16 := by
  refine ⟨by unfold Works; decide +kernel, by decide +kernel, by decide +kernel, by decide +kernel, by decide +kernel, by decide +kernel, by decide +kernel,
    by decide +kernel, rfl, by decide +kernel⟩

/-! ## Lines at their home, the host, the channels -/

def line32 : Line := ⟨false, 32⟩
/-- The device with one message in flight and one slice. -/
def devM (m : Msg) (n : Nat) (x : Slice) : Dev := { devOf [(0, group0)] with net := [m], slices := [(n, x)] }
def sMsg (m : Msg) (n : Nat) (x : Slice) : State := { dev := devM m n x }
def home0 (w : Way) : Slice := { ways := [(0, w)] }
def toHome (b : MsgBody) : Msg := { src := .slice 0, dst := .slice 16, rid := 7, body := b }
theorem wit_reads : ∀ b ∈ [MsgBody.rdS line32 15 0, .rdO line32 1 0], let s := sMsg (toHome b) 16 (home0 way0)
    s.dev.inLog line32.addr = false ∧ AtRest s.dev 0 16 0 0 line32 way0 ∧ Arrives s (.slice 0) 0 0 16 (toHome b) [] ∧ (15#4) &&& ~~~way0.valid = 0
    ∧ way0.hostE = false := by unfold AtRest Arrives; decide +kernel

/-- A write of one whole line, one of a single byte, and one to a line that stack 7 holds. -/
def wayShared : Way := { way0 with sharers := 0x80 }
theorem wit_writes : (∀ x ∈ [(BitVec.allOnes 128, { way0 with valid := 0 }), ((1 : BitVec 128), way0)],
      let m := toHome (.wr line32 x.1 0 0)
      AtRest (devM m 16 (home0 x.2)) 0 16 0 0 line32 x.2 ∧ Arrives (sMsg m 16 (home0 x.2)) (.slice 0) 2 0 16 m [] ∧ Alone1 x.2
      ∧ sectorsOf x.1 &&& ~~~sectorsCovered x.1 &&& ~~~x.2.valid = 0)
    ∧ (let m := toHome (.wr line32 1 0 0)
       AtRest (devM m 16 (home0 wayShared)) 0 16 0 0 line32 wayShared ∧ Arrives (sMsg m 16 (home0 wayShared)) (.slice 0) 2 0 16 m []
        ∧ wayShared.sharers = 1#8 <<< 7 ∧ wayShared.hostS = false ∧ wayShared.hostE = false ∧ (home0 wayShared).freeEntry = some 0) := by
  unfold AtRest Arrives Alone1; decide +kernel

theorem wit_atomAtHome : let ls : List AtomLane := [{ lane := 0, off := 124, b := 1, c := 0 }]
    let m := toHome (.atm line32 .add 0 false false ls)
    AtRest (devM m 16 (home0 way0)) 0 16 0 0 line32 way0 ∧ Arrives (sMsg m 16 (home0 way0)) (.slice 0) 0 0 16 m [] ∧ Alone1 way0
    ∧ sectorsOf (atomMask 0 ls) &&& ~~~way0.valid = 0 := by unfold AtRest Arrives Alone1; decide +kernel

/-- A reduction line in the shadow: no declared count, a declared count of 2, and one that is closed. -/
def shadow0 (count : Nat) : Shadow := { line := line32, desc := { cls := .addF, count := count, fenceEn := false, fence := 0 }, fields := [] }
def open0 (count : Nat) : Slice := { ways := [(0, { way0 with redOpen := true })], slots := [shadow0 count] }
theorem wit_contributions : ∀ x ∈ [(0, false), (2, false), (0, true)], let y := shadow0 x.1
    let m := toHome (.redc line32 y.desc [] x.2)
    let s := sMsg m 16 (open0 x.1)
    Arrives s (.slice 0) 2 0 16 m [] ∧ s.dev.place 0 line32 = some (16, 0) ∧ (s.dev.slice 16).slotOf line32 = some y ∧ (s.dev.slice 16).waitq = []
    ∧ (y.desc.count = 0 ∨ y.received + 1 ≠ y.desc.count) ∧ (s.dev.slice 16).findWay 0 (s.dev.homeWays 0) line32 = some (0, { way0 with redOpen := true })
    ∧ (s.dev.slice 16).spillOf line32 = none ∧ y.desc.fenceEn = false := by unfold Arrives; decide +kernel

/-- A load waits at slice 0 for line 32; the FILL comes from slice 16, as a sharer's copy or not. -/
def miss0 : MissEntry := { line := line32, slot := 0, shared := true, hint := 0, reqs := [(.load 0 0 1, 1)], invSeen := true, sent := 0 }
def fromHome (b : MsgBody) : Msg := { src := .slice 16, dst := .slice 0, rid := 0, body := b }
theorem wit_fill : ∀ r ∈ [false, true], let m := fromHome (.fill line32 15 0 r)
    let s := sMsg m 0 { miss := [miss0] }
    Arrives s (.slice 16) 2 0 0 m [] ∧ s.dev.place 0 line32 = some (16, 0) ∧ (s.dev.slice 0).miss = [miss0] ∧ miss0.line = line32
    ∧ miss0.reqs = [(.load 0 0 1, 1)] ∧ (1#4) &&& ~~~15#4 = 0 ∧ (s.dev.slice 0).nearq = [] ∧ miss0.invSeen = true := by
  unfold Arrives; decide +kernel

def outA : OutAccess := { out0 with kind := .atomic, dst := some (false, 8, 1) }
def sAns (b : MsgBody) : State :=
  { dev := { devOf [(0, groupM)] with cores := [(0, { blocks := [block0], outs := [outA] })],
                                      net := [{ src := .slice 16, dst := .core 0 0, rid := 1, body := b }] } }
theorem wit_answers : ∀ b ∈ [MsgBody.ack line32, .atmRsp line32 [(0, 5)], .held line32], let s := sAns b
    s.dev.partOfStack 0 = some 0 ∧ s.dev.partRuns 0 = true
    ∧ takeFirst (.slice 16) (.core 0 0) 1 s.dev.net = some ({ src := .slice 16, dst := .core 0 0, rid := 1, body := b }, [])
    ∧ (s.dev.core 0).outs = [outA] ∧ outA.id = 1 ∧ outA.dst = some (false, 8, 1) ∧ s.dev.group outA.gkey = some groupM
    ∧ bumps outA.sem outA.scope = false := by decide +kernel

/-- The home waits for the INV_ACK of stack 0. -/
def awaitInv : Await := { line := line32, mte := 0, inv := 1 }
theorem wit_invalidations :
    (let m := fromHome (.inv line32)
     Arrives (sMsg m 0 {}) (.slice 16) 0 0 0 m [])
    ∧ (let m := toHome (.invAck line32)
       let s := sMsg m 16 { ways := [(0, { way0 with sharers := 1 })], awaits := [awaitInv] }
       Arrives s (.slice 0) 1 0 16 m [] ∧ s.dev.place 0 line32 = some (16, 0)
        ∧ (s.dev.slice 16).findWay 0 (s.dev.homeWays 0) line32 = some (0, { way0 with sharers := 1 }) ∧ (s.dev.slice 16).awaitOf line32 = some awaitInv
        ∧ awaitInv.inv = 1#8 <<< (0 / 16) ∧ awaitInv.bi = none ∧ awaitInv.channel = 0 ∧ awaitInv.d2h = none ∧ awaitInv.victim = false
        ∧ (s.dev.slice 16).waitq = [])
    ∧ (let m := toHome (.evn line32)
       Arrives (sMsg m 16 (home0 way0)) (.slice 0) 0 0 16 m []) := by unfold Arrives; decide +kernel

/-- A request that has waited 100 µs for an open line, a contribution that can go on, an answer that is 1 ms late. -/
def wait0 : HomeReq := { rid := 7, src := .core 0 0, line := line32, kind := .rdS 1 0, arrived := 0 }
def waitR : HomeReq := { wait0 with kind := .redc (shadow0 0).desc [] false }
def sWait (r : HomeReq) : State := { dev := { dev0 with slices := [(16, { open0 0 with waitq := [r] })], coh := 100000 } }
def sLate : State := { dev := { sOut.dev with coh := 1000000 } }
theorem wit_homeTimers :
    (((sWait wait0).dev.slice 16).waitq[0]? = some wait0 ∧ ((sWait wait0).dev.slice 16).isOpen wait0.line = true ∧ wait0.held = false
      ∧ wait0.kind.fromHost = false ∧ wait0.arrived + 100000 ≤ (sWait wait0).dev.coh ∧ (sWait wait0).dev.inj.aim ≠ some (9, 16))
    ∧ ((sWait waitR).dev.partOfSlice 16 = some 0 ∧ (sWait waitR).dev.partRuns 0 = true ∧ ((sWait waitR).dev.slice 16).waitq = [waitR]
      ∧ waitR.kind = .redc (shadow0 0).desc [] false ∧ (sWait waitR).dev.place 0 waitR.line = some (16, 0)
      ∧ ((sWait waitR).dev.slice 16).slotOf waitR.line = some (shadow0 0) ∧ (shadow0 0).desc.count = 0)
    ∧ (unitStack (.core 0 0) = some 0 ∧ sLate.dev.partOfStack 0 = some 0 ∧ sLate.dev.partRuns 0 = true
      ∧ sLate.dev.lateAnswer 0 (.core 0 0) 32 = some (1, 16) ∧ sLate.dev.inj.fired = false) := by decide +kernel

/-- Sectors 0 and 1 of line 32 are being read. -/
def awaitCh : Await := { line := line32, mte := 0, channel := 3 }
def sChan : State := { dev := { dev0 with slices := [(16, { ways := [(0, { way0 with valid := 12 })], awaits := [awaitCh] })] } }
theorem wit_channelRead : sChan.dev.partOfSlice 16 = some 0 ∧ sChan.dev.partRuns 0 = true ∧ sChan.dev.stage < 4 ∧ sChan.dev.inj.aim = none
    ∧ (sChan.dev.slice 16).awaitOf line32 = some awaitCh ∧ awaitCh.channel ≠ 0 ∧ awaitCh.inv = 0 ∧ awaitCh.bi = none ∧ awaitCh.d2h = none
    ∧ awaitCh.victim = false ∧ (sChan.dev.slice 16).waitq = [] ∧ sChan.dev.place 0 line32 = some (16, 0)
    ∧ (sChan.dev.slice 16).findWay 0 (sChan.dev.homeWays 0) line32 = some (0, { way0 with valid := 12 })
    ∧ (sChan.dev.channelRead 0 32 3 [] none).data = some 0 ∧ (sChan.dev.channelRead 0 32 3 [] none).dev.slices = sChan.dev.slices
    ∧ (sChan.dev.channelRead 0 32 3 [] none).dev.conf = sChan.dev.conf := by decide +kernel

/-- The host sees the partition's memory at 2^40. -/
def host0 : HostPort := { link := .up, modules := 15, decoders := [(0, { base := 2 ^ 40, size := 4 * 0x6000000000, committed := true })] }
def sHost (x : Slice) (st : PartState) : State := { dev := { dev0 with host := host0, parts := [(0, { state := st })], slices := [(16, x)] } }
def hpa0 : Nat := 2 ^ 40 + 0x1000
theorem wit_hostMemory : (∀ h ∈ [hpa0, hpa0 + 64], HostReaches (sHost (home0 way0) .running) h 0 (0x1000 + (h - hpa0)) 16 0 0 way0)
    ∧ halfSectors 0 &&& ~~~way0.valid = 0 ∧ halfSectors 1 &&& ~~~way0.valid = 0 ∧ Alone1 way0
    ∧ (let be : BitVec 128 := BitVec.ofNat 128 (1 * 2 ^ 64)
       sectorsOf be &&& ~~~sectorsCovered be &&& ~~~way0.valid = 0)
    ∧ (sHost {} .down).dev.memReq hpa0 = .down ∧ (sHost {} .containing).dev.memReq hpa0 = .held ∧ s0.dev.memReq hpa0 = .gone := by
  unfold HostReaches AtRest Alone1; decide +kernel

theorem wit_backInvalidate : ∀ b ∈ [BiKind.data, .inv], let a : Await := { line := line32, mte := 0, bi := some b }
    let s := sHost { home0 { way0 with hostE := true } with awaits := [a] } .running
    s.dev.linkUp = true ∧ s.dev.dpaOf hpa0 = some (0, 0x1000) ∧ s.dev.partRuns 0 = true ∧ s.dev.inj.aim = none ∧ s.dev.place 0 line32 = some (16, 0)
    ∧ (s.dev.slice 16).findWay 0 (s.dev.homeWays 0) line32 = some (0, { way0 with hostE := true }) ∧ (s.dev.slice 16).awaitOf line32 = some a ∧ a.inv = 0
    ∧ a.channel = 0 ∧ a.d2h = none ∧ a.victim = false ∧ (s.dev.slice 16).waitq = [] ∧ a.bi.isSome := by decide +kernel

/-- Host line 0 stands at its proxy, slice 0, modified; then the host has been asked for it. -/
def wayHost (x : Mesi) : Way := { line := ⟨true, 0⟩, valid := 15, mesi := x }
def sProxy (x : Mesi) (l : List Await) : State := { dev := { dev0 with host := host0, slices := [(0, { home0 (wayHost x) with awaits := l })] } }
theorem wit_hostCache : ((sProxy .m []).dev.linkUp = true ∧ ((sProxy .m []).dev.pconf 0).isSome ∧ (sProxy .m []).dev.partRuns 0 = true
      ∧ AtRest (sProxy .m []).dev 0 0 0 0 ⟨true, 0 / 128⟩ (wayHost .m) ∧ (wayHost .m).mesi ≠ .i)
    ∧ (∀ k ∈ [D2hKind.rdOwn, .rdShared], let a : Await := { line := ⟨true, 0⟩, mte := 0, d2h := some k }
       let s := sProxy .i [a]
       s.dev.place 0 ⟨true, 0 / 128⟩ = some (0, 0) ∧ (s.dev.slice 0).findWay 0 (s.dev.homeWays 0) ⟨true, 0⟩ = some (0, wayHost .i)
        ∧ (s.dev.slice 0).awaitOf ⟨true, 0⟩ = some a ∧ (a.d2h = some .rdOwn ∨ a.d2h = some .rdShared) ∧ a.inv = 0 ∧ a.channel = 0 ∧ a.bi = none
        ∧ a.victim = false ∧ (s.dev.slice 0).waitq = [] ∧ (Mesi.e ≠ .i)) := by unfold AtRest; decide +kernel

/-- Channel 0 idle, channel 96 while line 32 is being read, the last channel, and one whose recalibration is due, 8 ms late. -/
def sDue (t : Nat) : State := { dev := { dev0 with time := t } }
theorem wit_channels : s0.dev.chanUp 0 = true ∧ s0.dev.chanUp 767 = true
    ∧ (({ corrections := [64] } : Chan).corrections = 64 :: [] ∧ ({ corrections := [64] } : Chan).unusable = false
        ∧ ({ dev0 with chans := [(0, { corrections := [64] })] } : Dev).chan 0 = { corrections := [64] })
    ∧ (s0.dev.bankBusy 0 0 = false ∧ sChan.dev.chanUp 96 = true ∧ sChan.dev.bankBusy 96 (sChan.dev.chan 96).refreshBank = true
        ∧ (sChan.dev.chan 96).postponed < 8)
    ∧ (736 % 32 = 0 ∧ s0.dev.chanUp 736 = true) ∧ ((s0.dev.chan 0).unusable = false ∧ s0.dev.inj.armed = none ∧ s0.dev.clusterBusy 0 = false)
    ∧ ((sDue 256000000).dev.recalDue 0 ≤ (sDue 256000000).dev.time ∧ (sDue 256000000).dev.chanReads 0 = [] ∧ (sDue 255999999).dev.time < (sDue 255999999).dev.recalDue 0
        ∧ (sDue 264000000).dev.recalDue 0 + 8000000 ≤ (sDue 264000000).dev.time)
    ∧ ((2 ^ 256 - 1 : Nat) < 2 ^ 256 ∧ 35 < 36 ∧ 0 < 1 ∧ 255 < 256) := by decide +kernel

/-! ## Seif -/

theorem some_of {α : Type} {x : Option α} (b : α → Bool) (h : (match x with | some v => b v | none => false) = true) : ∃ v, x = some v ∧ b v = true := by
  split at h
  · exact ⟨_, rfl, h⟩
  · cases h

/-- Module 1, whose port 0 leads to port 0 of module 2. -/
def conf1 : Conf := { conf0 with moduleId := 1, portMap := [5], route := [(2, 1)] }
def devS (x : Port) : Dev := { dev0 with conf := conf1, ports := [(0, x)] }
def sPort (x : Port) : State := { dev := devS x }
def peer0 : SeifPeer := { present := true, good := 0xFF, modId := 2, port := 0 }
def portUp : Port := { state := .up, lanes := 0xFF, trained := 0xFF }
def flit0 : SentFlit := { seq := 5, bulk := false, msgs := [] }

theorem wit_seifPorts : (let s := sPort { state := .training }
      s.dev.power.rails.seif = true ∧ s.dev.portEnabled 0 = true ∧ (s.dev.port 0).state = .training ∧ (s.dev.port 0).retraining = false)
    ∧ (let s : State := { dev := { devS { state := .down } with time := 1000000000 } }
       (s.dev.port 0).state = .down ∧ (s.dev.port 0).downAt + 1000000000 ≤ s.dev.time ∧ s.dev.portEnabled 0 = true)
    ∧ chooseLanes 0 = 0 ∧ chooseLanes peer0.good ≠ 0 ∧ peerExpected ((devS {}).portEntry 0) peer0 = true
    ∧ peerExpected ((devS {}).portEntry 0) { peer0 with modId := 3 } = false
    ∧ (portUp.state = .up ∧ 7 < 8 ∧ portUp.lanes.getLsbD 7 = true ∧ BitVec.ofNat 8 0x0F = halfLanes portUp.lanes ∧ BitVec.ofNat 8 0xFF = portUp.trained
        ∧ BitVec.ofNat 8 0xFF = portUp.lanes ∧ BitVec.ofNat 8 0x0F ≠ portUp.lanes)
    ∧ (let x : Port := { portUp with state := .training, retraining := true, retry := [flit0] }
       x.retraining = true ∧ x.txq = [] ∧ x.sinceNull + x.retry.length < 4095) := by decide +kernel

def msgIn (type dst hops : Nat) (w1 : DWord) : SeifMsg :=
  { dstModule := dst, dpart := 0, srcModule := 2, spart := 0, type := type, hops := hops, function := 0x100, handle := 0, w1 := w1, dlen := 1,
    data := List.replicate 16 1 }
def flitOf (m : SeifMsg) : SeifFlit := { seq := 0, ack := 4095, bulk := false, msgs := [m] }

theorem wit_payload : let s := sPort portUp
    let z : Port := { portUp with rxSeq := 1, ctrlBack := 1 }
    s.dev.inj.aim = none ∧ (s.dev.port 0).state = .up ∧ (flitOf (msgIn 5 1 15 0)).seq = portUp.rxSeq ∧ { flitOf (msgIn 5 1 15 0) with seq := 1 }.seq ≠ portUp.rxSeq
    ∧ s.dev.partOfPort 0 = some 0 ∧ s.dev.addressed (msgIn 5 1 15 0) = some 0 ∧ (msgIn 5 1 15 0).dstModule = s.dev.conf.moduleId
    ∧ (msgIn 5 2 0 0).dstModule ≠ s.dev.conf.moduleId ∧ (msgIn 5 2 0 0).hops = 0 ∧ 0 < (msgIn 5 3 15 0).hops
    ∧ (portUp.take 4095 0 0).pump = portUp ∧ (s.dev.setPort 0 z).portsTo none 0xFFFF 3 = []
    ∧ ∃ e, (s.dev.setPort 0 z).seifSend none 0xFFFF { msgIn 5 2 15 0 with hops := 14 } = some e := by
  refine ⟨by decide +kernel, by decide +kernel, by decide +kernel, by decide +kernel, by decide +kernel, by decide +kernel, by decide +kernel,
    by decide +kernel, by decide +kernel, by decide +kernel, by decide +kernel, by decide +kernel, ?_⟩
  exact (some_of (fun _ => true) (by decide +kernel)).imp fun e h => h.1

theorem wit_nak : ∀ n ∈ [0, 15], let x : Port := { portUp with retry := [flit0], oldResent := n }
    (sPort x).dev.inj.aim = none ∧ x.state = .up ∧ x.txq = [] ∧ (x.take 3 0 0).retry = [flit0] ∧ x.sinceNull + 1 < 4095
    ∧ (if (sPort x).dev.time < x.burstAt + 1000000 then x.burst else 0) + 1 ≤ 1024 ∧ (x.take 3 0 0).oldResent = n := by decide +kernel

theorem wit_seifSend : let x : Port := { portUp with retry := [{ flit0 with seq := 4095 }, { flit0 with seq := 0 }] }
    x.retry = [{ flit0 with seq := 4095 }] ++ { flit0 with seq := 0 } :: [] ∧ x.retry.length ≤ 4095
    ∧ (∀ k, k < 2 → x.retry[k]?.map (fun g => g.seq) = some ((4095 + k) % 4096))
    ∧ (devS portUp).portsTo none 0xFFFF 3 = [] ∧ (devS portUp).portsTo none 0xFFFF 2 = [0] ∧ portUp.txq = [] ∧ portUp.retry.length < 4095 ∧ portUp.sinceNull < 4095
    ∧ portUp.ctrlUsed < seifRoom false ∧ portUp.bulkUsed < seifRoom true :=
  ⟨rfl, by decide, by decide, by decide +kernel, by decide +kernel, rfl, by decide, by decide, Nat.succ_pos _, Nat.succ_pos _⟩

/-- A message that waits at port 0. -/
def sIn (bulk : Bool) (m : SeifMsg) (st : PartState) (stage : Nat) : State :=
  { dev := { devS (if bulk then { portUp with bulkIn := [{ msg := m, last := true }] } else { portUp with ctrlIn := [{ msg := m, last := true }] }) with
      parts := [(0, { state := st })], stage := stage } }
def answered (r : Dev × Cp) (b : Cp) : Bool := decide (r.2 = b) && decide (r.1.inj.aim = none)

/-- Whether reading, writing and signalling the place of a message all end so, with no injection armed. -/
def performs (bulk : Bool) (m : SeifMsg) (b : Cp) : Bool :=
  let d := (sIn bulk m .running 0).dev
  answered (d.cpWriteAll 0 (msgFn 0 m) (msgVa m) (16 * m.dlen) (ofBytes m.data)) b && answered (d.cpRead 0 (msgFn 0 m) (msgVa m) (16 * m.dlen)) b
    && answered (d.signal 0 (msgFn 0 m) (msgVa m) m.operand.toNat m.opMax) b

theorem wit_seifRequests : ∀ x ∈ [(mtPutData, true), (mtGetReq, false), (mtSignal, false)], let m := msgIn x.1 1 15 0x1000
    SeifHead (sIn x.2 m .running 0) 0 x.2 x.1 0 m ∧ SeifHead (sIn x.2 m .running 4) 0 x.2 x.1 0 m ∧ SeifHead (sIn x.2 m .down 0) 0 x.2 x.1 0 m
    ∧ (sIn x.2 m .running 0).dev.targetTakes 0 m = true ∧ (sIn x.2 m .running 4).dev.targetTakes 0 m = true
    ∧ (sIn x.2 m .down 0).dev.targetTakes 0 m = false ∧ m.w1.toNat < 2 ^ 56 ∧ 1 ≤ m.dlen ∧ m.dlen ≤ 14 ∧ performs x.2 m (.ok 0) = true := by
  unfold SeifHead; decide +kernel

theorem wit_seifFaults : ∀ x ∈ [(mtPutData, true), (mtGetReq, false), (mtSignal, false)], let m := msgIn x.1 1 15 (BitVec.ofNat 64 (2 ^ 52))
    SeifHead (sIn x.2 m .running 0) 0 x.2 x.1 0 m ∧ (sIn x.2 m .running 0).dev.targetTakes 0 m = true ∧ performs x.2 m .fault = true := by
  unfold SeifHead; decide +kernel

theorem wit_getAnswer : ∃ e, (sIn false (msgIn mtGetReq 1 15 0x1000) .running 0).dev.seifSend (some 0) 0xFFFF
    { msgIn mtGetData 2 15 0x1000 with srcModule := 1 } = some e := (some_of (fun _ => true) (by decide +kernel)).imp fun e h => h.1

/-- PUT and GET of 224 bytes with module 2; the PUT may ask for a remote signal. -/
def tPut (f : Nat) : Task := { taskOf 0 0 0 0 0 0 0 with desc := tdesc 0x18 (2 + 2 ^ 15 * f) 0 0x1000 0x2000 224 0 + (8 * f) <<< 24 }
def tGet : Task := taskOf 0x19 2 0 0x1000 0x2000 224 0
def sTransfer (t : Task) (x : Port) : State := { dev := { devS x with queues := [(0, queue0)], tasks := [t] } }

theorem wit_transfers : (∀ x ∈ [(clsPut, tPut 0), (clsGet, tGet)], let s := sTransfer x.2 portUp
      Works s 0 0 x.1 0 x.2 ∧ Works (sTransfer x.2 {}) 0 0 x.1 0 x.2 ∧ x.2.work = .none ∧ s.dev.transferOk x.2 = true ∧ x.2.body 2 ≤ 224
      ∧ (sTransfer x.2 {}).dev.takeHandle.2.portReady 0 (x.2.aux16 % 4096) = none ∧ s.dev.takeHandle.2.portReady 0 (x.2.aux16 % 4096) = some true
      ∧ (s.dev.takeHandle.2.cpRead 0 (s.dev.fnOfQueue 0) (x.2.body 0) (x.2.body 2) x.2.acct).2 = .ok 0)
    ∧ (let s := sTransfer tGet portUp
       ∃ e, s.dev.takeHandle.2.seifSend (some 0) 0xFFFF
          { s.dev.takeHandle.2.transferMsg 0 tGet s.dev.takeHandle.1 mtGetReq (tGet.body 0 % 2 ^ 56) with dlen := tGet.body 2 / 16 } = some e)
    ∧ (let s := sTransfer (tPut 0) portUp
       let d1 := (s.dev.takeHandle.2.cpRead 0 (s.dev.fnOfQueue 0) 0x1000 224).1
       ∃ e, d1.seifSend (some 0) 0xFFFF { d1.transferMsg 0 (tPut 0) s.dev.takeHandle.1 mtPutData ((tPut 0).body 1) with dlen := 14, data := toBytes 0 224 } = some e) := by
  refine ⟨by unfold Works; decide +kernel, ?_, ?_⟩
  · exact (some_of (fun _ => true) (by decide +kernel)).imp fun e h => h.1
  · exact (some_of (fun _ => true) (by decide +kernel)).imp fun e h => h.1

/-- The answer to a transfer in progress waits at port 0. -/
def sAnswer (bulk : Bool) (m : SeifMsg) (t : Task) : State :=
  { dev := { (sIn bulk m .running 0).dev with queues := [(0, queue0)], tasks := [t] } }
def moving (t : Task) (sent bytes : Nat) (sig : Bool) : Task := { t with work := .transfer 0 sent bytes sig }

theorem wit_transferAnswers : (∀ x ∈ [(0, 0), (1, 0), (1, 1)], let m := msgIn mtPutAck 1 15 (BitVec.ofNat 64 x.1)
      let t := moving (tPut x.2) 224 0 false
      let s := sAnswer false m t
      SeifHead s 0 false mtPutAck 0 m ∧ s.dev.transferTask m.handle = some t ∧ t.aux16 % 4096 = m.srcModule ∧ t.cls = clsPut
      ∧ min (t.body 2) (0 + 224 * (m.w1.toNat % 2 ^ 32)) = 224 * x.1 ∧ (x.2 = 0 → t.aux16 < 2 ^ 15) ∧ (x.2 = 1 → 2 ^ 15 ≤ t.aux16 ∧ t.fenceUsed 3 = true))
    ∧ (∃ e, (sAnswer false (msgIn mtPutAck 1 15 1) (moving (tPut 1) 224 0 false)).dev.seifSend (some 0) 0xFFFF
        { (sAnswer false (msgIn mtPutAck 1 15 1) (moving (tPut 1) 224 0 false)).dev.transferMsg 0 (moving (tPut 1) 224 0 false) 0 mtSignal ((tPut 1).fenceVa 3) with
          operand := BitVec.ofNat 64 ((tPut 1).fenceVal 3), opMax := (tPut 1).fop.testBit 5 } = some e)
    ∧ (let m := msgIn mtSignalAck 1 15 0
       SeifHead (sAnswer false m (moving (tPut 1) 224 224 true)) 0 false mtSignalAck 0 m)
    ∧ (let m := msgIn mtNack 1 15 0xA2
       SeifHead (sAnswer false m (moving (tPut 0) 224 0 false)) 0 false mtNack 0 m)
    ∧ (let m := msgIn mtGetData 1 15 0x1000
       let t := moving tGet 224 208 false
       let s := sAnswer true m t
       SeifHead s 0 true mtGetData 0 m ∧ s.dev.transferTask m.handle = some t ∧ t.cls = clsGet ∧ s.dev.stage < 4 ∧ s.dev.partRuns 0 = true
        ∧ answered (s.dev.cpWriteAll 0 (s.dev.fnOfQueue 0) (t.body 1 + (msgVa m - t.body 0)) (16 * m.dlen) (ofBytes m.data) t.acct) (.ok 0) = true
        ∧ min (t.body 2) (208 + 16 * m.dlen) = t.body 2 ∧ min (t.body 2) (0 + 16 * m.dlen) ≠ t.body 2) := by
  refine ⟨by unfold SeifHead; decide +kernel, ?_, by unfold SeifHead; decide +kernel, by unfold SeifHead; decide +kernel, by unfold SeifHead; decide +kernel⟩
  exact (some_of (fun _ => true) (by decide +kernel)).imp fun e h => h.1

/-- An ALL_REDUCE of two F32 elements between module 1, rank 0, and module 2: its communicator stands at 0x5000. -/
def comm0 : Nat := 0x4D435A53 + 1 <<< 32 + 2 <<< 48 + 1 <<< 80 + 1 <<< 512 + 2 <<< 544
def tColl : Task := taskOf 0x20 1 9 0x5000 0x6000 0x7000 2
def devC : Dev := { devS portUp with queues := [(0, { queue0 with binding := 0xA0 })], tasks := [tColl], mem := Mem.writeNat [] 0x5000 72 comm0 }
def coll0 : Coll :=
  { q := 0, i := 0, part := 0, fn := 0x100, engine := 0, commId := 1, seq := 9, kind := 1, op := 0, dtype := 0, count := 2, root := 0,
    ranks := [(1, 0), (2, 0)], me := 0, ports := 1, logVa := 0, logK := 0, dst := 0x7000, buf := [0, 0] }

def devC1 : Dev := (devC.cpRead 0 0x100 0x5000 64).1
def devC2 : Dev := (devC1.cpRead 0 0x100 0x5000 (64 + 4 * 2)).1
def devC3 : Dev := (devC2.cpRead 0 0x100 0x6000 (4 * 2)).1
def devC4 : Dev := (devC3.takeEarly coll0).1
def devC5 : Dev := { devC4.setTask { tColl with work := .collective } with seif := { devC4.seif with colls := [coll0] } }

theorem wit_collective : Works { dev := devC } 0 0 clsCollective 0 tColl ∧ devC.seif.colls = [] ∧ tColl.body 0 % 64 = 0
    ∧ (devC.cpRead 0 0x100 0x5000 64).2 = .ok (comm0 % 2 ^ 512) ∧ bytesAt (comm0 % 2 ^ 512) 6 2 = 2
    ∧ (devC1.cpRead 0 0x100 0x5000 (64 + 4 * 2)).2 = .ok comm0 ∧ devC2.mkColl 0 tColl comm0 = some { coll0 with buf := [] } ∧ collSource 1 2 2 false = 2
    ∧ (devC2.cpRead 0 0x100 0x6000 (4 * 2)).2 = .ok 0 ∧ collBuffer 1 2 0 2 (unpackElems 4 0 2) = [0, 0]
    ∧ (devC3.takeEarly coll0).2 = (coll0, false) ∧ devC4.coresIssue = true ∧ devC4.seif.colls = [] ∧ coll0.readies = [] ∧ 0 < collSteps 1 2
    ∧ coll0.plan.recvs = [(1, [0])] := by unfold Works; decide +kernel

theorem wit_collectiveSends : ∃ e, devC5.seifSend (some 0) coll0.ports (devC5.collMsg coll0 1 mtReady (1 + 9 * 2 ^ 16)) = some e
    ∧ decide (e.inj.aim = none) = true := some_of _ (by decide +kernel)

def collGoing : Coll := { coll0 with began := true }
def sColl (bulk : Bool) (m : SeifMsg) (l : List Coll) : State :=
  { dev := { (sIn bulk m .running 0).dev with queues := [(0, queue0)], tasks := [tColl], seif := { colls := l } } }
/-- Bits of the second word of a message of the collective: communicator 1, then sequence 9 or the step and number of a piece. -/
def w1Ready : DWord := 0x90001
theorem wit_collMessages : (let m := msgIn mtReady 1 15 w1Ready
      let s := sColl false m [collGoing]
      OneColl s collGoing ∧ SeifHead s 0 false mtReady 0 m ∧ s.dev.targetTakes 0 m = true ∧ s.dev.collOf 0 m = some (collGoing, 1)
      ∧ collGoing.plan.sends = [(1, [1])] ∧ collGoing.sentTo = [] ∧ m.w1.toNat / 2 ^ 48 % 256 = collGoing.step % 256 ∧ collGoing.got = []
      ∧ ∃ e, s.dev.sendData { collGoing with readies := [(1, 0)] } 1 [1] (messagesFor 0 1) 0 = some e ∧ decide (e.inj.aim = none) = true)
    ∧ (let m := { msgIn mtCollData 1 15 1 with handle := 9 }
       let s := sColl true m [collGoing]
       OneColl s collGoing ∧ SeifHead s 0 true mtCollData 0 m ∧ s.dev.stage < 4 ∧ collGoing.part = 0 ∧ collGoing.fn = msgFn 0 m
        ∧ collGoing.commId = m.w1.toNat % 2 ^ 16 ∧ collGoing.seq % 2 ^ 13 = m.handle ∧ collGoing.step % 256 = m.w1.toNat / 2 ^ 16 % 256
        ∧ collGoing.plan.recvs = [(1, [0])] ∧ (collGoing.ranks.getD 1 (0, 0)).1 = m.srcModule ∧ collGoing.plan.sends = [(1, [1])] ∧ collGoing.readies = [])
    ∧ (let m := msgIn mtAbort 1 15 w1Ready
       let s := sColl false m [collGoing]
       SeifHead s 0 false mtAbort 0 m ∧ s.dev.targetTakes 0 m = true ∧ s.dev.collOf 0 m = some (collGoing, 1) ∧ s.dev.task 0 0 = some tColl
        ∧ tColl.cls = clsCollective)
    ∧ (∀ ty ∈ [mtReady, mtAbort], let m := msgIn ty 1 15 w1Ready
       SeifHead (sColl false m []) 0 false ty 0 m ∧ (sColl false m []).dev.collOf 0 m = none
        ∧ (sColl false m []).dev.seif.early.length < 64)
    ∧ (1 ≤ 6 ∧ 0 < 3 ∧ 2 < 3 ∧ 3 < collSteps 1 3 ∧ 1 < collSteps 5 3) := by
  refine ⟨⟨by unfold OneColl; decide +kernel, by unfold SeifHead; decide +kernel, by decide +kernel, by decide +kernel, by decide +kernel, by decide +kernel,
    by decide +kernel, by decide +kernel, some_of _ (by decide +kernel)⟩, by unfold OneColl SeifHead; decide +kernel, by unfold SeifHead; decide +kernel,
    by unfold SeifHead; decide +kernel, by decide⟩

/-- An engine that holds 64 early messages. -/
def early0 : Early := { engine := 0, part := 0, fn := 0x100, commId := 2, seq := 0, module := 2, step := 0, abort := false }
def sFull (m : SeifMsg) : State := { dev := { (sIn false m .running 0).dev with seif := { early := List.replicate 64 early0 } } }
theorem wit_earlyFull : ∀ ty ∈ [mtReady, mtAbort], let m := msgIn ty 1 15 w1Ready
    SeifHead (sFull m) 0 false ty 0 m ∧ (sFull m).dev.collOf 0 m = none ∧ (sFull m).dev.targetTakes 0 m = true
    ∧ 64 ≤ ((sFull m).dev.seif.early.filter (fun e => e.engine == 0 / 4)).length := by unfold SeifHead; decide +kernel


/-! ## Faults, the host port -/

/-- Losses 60 s ago and just short of it; a cause that a restart follows and one that none does. -/
theorem wit_partitionLoss : (∀ x ∈ [([1, 0], 1), ([1, 1], 2)], let d : Dev := { dev0 with time := 60000000000, parts := [(0, { state := .running, history := x.1 })] }
      (d.part 0).state = .running ∧ ((d.part 0).history.filter (fun t => decide (d.time < t + 60000000000))).length = x.2)
    ∧ causeDown 0x05 = false ∧ causeDown 0x99 = true := by decide +kernel

def rep0 (det unit : Nat) (detected : Bool) : FaultRep := { detector := det, unit := unit, detected := detected }
def devF : Dev := { devS portUp with host := host0 }
theorem wit_faultReports : (∀ x ∈ [(0x05, 0, Place.stack 0), (0x06, 0, .seif 0), (0x07, 0, .ucie), (0x0A, 0, .hub)], ∀ b ∈ [true, false],
      devF.live = true ∧ devF.detPowered x.1 x.2.1 = true ∧ (rep0 x.1 x.2.1 b).injected = false ∧ detPlace x.1 x.2.1 = some x.2.2)
    ∧ devF.partOfStack 0 = some 0 ∧ (devF.part 0).state = .running ∧ (devF.part 0).history = [] ∧ (devF.port 0).state = .up := by decide +kernel

/-- BARs of physical function 0 open, of virtual function 1 too. -/
def hostOpen : HostPort := { host0 with cfg := [(0, { memEnable := true, vfEnable := true }), (1, { memEnable := true })] }
def injT (auth : Bool) (l : DWord) : Injection := { testAuth := auth, target := 0x0005, locator := l }
def sInj (x : Injection) : State := { dev := { dev0 with host := hostOpen, inj := x, faults := { logProduced := 5, logConsumed := 2 } } }
theorem wit_injection : (∀ x ∈ [injT true 7, injT true 8, injT false 7], (sInj x).dev.barOpen 0 = true ∧ (sInj x).dev.live = true)
    ∧ (sInj (injT true 7)).dev.armTaken (sInj (injT true 7)).fuses = true ∧ (sInj (injT true 8)).dev.armTaken (sInj (injT true 8)).fuses = false
    ∧ (sInj (injT false 7)).dev.injAuth = 0 ∧ (0x00011A7E : DWord).toNat % 2 ^ 32 = 0x00011A7E ∧ (0x00011A7F : DWord).toNat % 65536 ≠ 0x1A7E
    ∧ (∀ v ∈ [2, 5], (sInj (injT true 7)).dev.faults.logConsumed ≤ v ∧ v ≤ (sInj (injT true 7)).dev.faults.logProduced)
    ∧ (1 < (sInj (injT true 7)).dev.faults.logConsumed ∧ (sInj (injT true 7)).dev.faults.logProduced < 6) := by decide +kernel

def sMeter : State := { dev := { dev0 with ledger := { running := true } } }
theorem wit_detectors : sMeter.dev.inj.aim = none ∧ sMeter.dev.stage < 4 ∧ sMeter.dev.live = true ∧ sMeter.dev.ledger.running = true
    ∧ (apart 100 90 ≤ 10 ∧ 10 < apart 100 89)
    ∧ (1000 * (2 * apart 62750 62250) ≤ 8 * (62750 + 62250) ∧ apart 62750 62250 ≤ 500 ∧ 500 < apart 62751 62250 ∧ 8 * (1008 + 1000) < 1000 * (2 * apart 1017 1000))
    ∧ (∀ x ∈ [(500, 520), (850, 830)], 0 < 24 ∧ ¬ (x.1 < 500 ∨ 850 < x.1) ∧ ¬ (x.2 < 500 ∨ 850 < x.2) ∧ ¬ 20 < apart x.1 x.2)
    ∧ (499 < 500 ∧ 850 < 851 ∧ 20 < apart 500 521)
    ∧ (24 ≤ 48 ∧ ¬ 5 * railNominal 48 < 100 * apart 787 (railNominal 48) ∧ 5 * railNominal 48 < 100 * apart 788 (railNominal 48)
      ∧ 2 * railNominal 48 < 100 * apart 750 766)
    ∧ (bitCount 1 = 1 ∧ bitCount (1 <<< 63) = 1 ∧ bitCount 3 = 2 ∧ 3 ≤ bitCount 7) ∧ sMeter.dev.detPowered 0x0F 0 = true := by decide +kernel

/-- A contained partition with an ordinary queue, and with a bootstrap queue. -/
def sLost (q : Nat) (x : Queue) : State := { dev := { dev0 with parts := [(0, { state := .containing })], queues := [(q, x)] } }
theorem wit_warmRestart : (∀ x ∈ [(1, queue0), (0, { queueBoot with state := .active })], let s := sLost x.1 x.2
      s.dev.live = true ∧ (s.dev.part 0).state = .containing ∧ s.dev.stage < 3 ∧ s.dev.pconf 0 = some { first := 0, lodes := 4 } ∧ s.dev.host.waiting = []
      ∧ s.dev.partOfQueue x.1 = some 0 ∧ s.dev.partOfQueue 32768 ≠ some 0 ∧ (s.dev.queue x.1).state ≠ .free ∧ s.dev.isBootQueue x.1 = (x.1 == 0)
      ∧ (∀ r, r < 4 → r ≠ 0 → (s.dev.part r).state = .absent) ∧ (∀ y ∈ s.dev.parts, y.1 < 4) ∧ (s.dev.parts.map (fun y => y.1)).Nodup) := by decide +kernel

def sLink (l : LinkState) : State := { dev := { dev0 with host := { hostOpen with link := l } } }
theorem wit_hostLink : (∀ l ∈ [LinkState.reset, .down, .sideband, .ready, .up], (sLink l).dev.portPowered = true ∧ (sLink l).dev.host.link = l)
    ∧ (∀ m ∈ [3, 15], linkModules m ≠ 0) ∧ (1 ≤ 1 ∧ 3 ≤ 3) := by decide +kernel

def mail (addr len tag seq : Nat) : MailMsg := { addr := BitVec.ofNat 64 addr, len := BitVec.ofNat 32 len, tag := BitVec.ofNat 16 tag, seq := BitVec.ofNat 16 seq }
def slot0 : ImgSlot := { inst := 0, accounts := 0, sizeGib := 1, base := 0x40000000 }
def devMail (mb n : Nat) (st : InstState) : Dev :=
  { dev0 with host := hostOpen, conf := { conf0 with slots := [slot0], owners := [(1, 0)] }, insts := [(0, { state := st })],
              mbox := [(mb, { msgs := List.replicate n (mail 0 0 0 5) })] }
def sMail (mb n : Nat) (st : InstState) : State := { dev := devMail mb n st }
theorem wit_mailboxes : (∀ x ∈ [(RegSpace.pf0Bar0, 0x80000, MailboxId.foreman), (.pf0Bar0, 0x81000, .secure), (.pf0Bar0, 0xC0000, .toTenant 0), (.vfBar0 1, 0x1000, .toManager 0)],
      postRegister x.1 x.2.1 = some x.2.2 ∧ x.2.1 % 16 = 0
      ∧ (∀ n ∈ [15, 16], let s := sMail (mailNum x.2.2) n .running
          s.dev.barOpen (spaceFn x.1) = true ∧ s.dev.postTaken x.2.2 = true ∧ (s.dev.mailbox (mailNum x.2.2)).msgs.length = n))
    ∧ (sMail 0 0 .saved).dev.postTaken (.toTenant 0) = false
    ∧ (∀ mb ∈ [MailboxId.toManager 0, .toTenant 0], ((sMail (mailNum mb) 2 .running).dev.mailbox (mailNum mb)).msgs = mail 0 0 0 5 :: [mail 0 0 0 5])
    ∧ ((0x50005 : Word).toNat % 65536 = (mail 0 0 0 5).seq.toNat ∧ (0x50006 : Word).toNat % 65536 ≠ (mail 0 0 0 5).seq.toNat) := by decide +kernel

/-- Cache_Enable set and HOST_CACHEID written. -/
def sAgent : State := { dev := { dev0 with host := { hostOpen with cfg := [(0, { memEnable := true, cacheEnable := true })], cacheIdWritten := true } } }
def confTop : Conf := { parts := [some { first := 0, lodes := 1 }, none, none, some { first := 3, lodes := 1 }] }
def sTop : State := { dev := { dev0 with host := hostOpen, conf := confTop } }
theorem wit_hostRegisters : (∀ s ∈ [sTop, sAgent], s.dev.barOpen 0 = true)
    ∧ ((List.range 4).foldl (fun n p => if (sTop.dev.pconf p).isSome then p else n) 0 = 3 ∧ (12 : Word).toNat % 16 + 3 ≤ 15 ∧ 15 < (13 : Word).toNat % 16 + 3)
    ∧ (∀ p, p < 4 → sTop.dev.agentOn p = false) ∧ sAgent.dev.agentOn 0 = true
    ∧ (sget {} sTop.dev.host.decoders 3).committed = false ∧ s0.dev.barOpen 0 = false ∧ sTop.dev.host.link = .up := by decide +kernel

/-! ## Instances -/

/-- Instance 0, which owns queue block 1, with one message for the foreman, or for the assayer. -/
def devI (x : Inst) (m : MailMsg) : Dev :=
  { dev0 with host := hostOpen, conf := { conf0 with slots := [slot0], owners := [(1, 0)] }, insts := [(0, x)], mbox := [(mbForeman, { msgs := [m] })] }
def sI (x : Inst) (m : MailMsg) : State := { dev := devI x m }
/-- The device once the message is taken. -/
def taken (s : State) : Dev := s.dev.setMailbox mbForeman { s.dev.mailbox mbForeman with msgs := [] }
theorem mail_of {s : State} {m : MailMsg} (h : s.dev.mgmtOn = true ∧ (s.dev.mailbox mbForeman).msgs = [m]) : ForemanMail s m (taken s) :=
  ⟨h.1, [], h.2, rfl⟩
/-- A message whose command begins. -/
def passes (s : State) (m : MailMsg) : Bool := (taken s).foremanCheck m == .inr (0, slot0, 0)

/-- The same, with an access of the instance that is not performed. -/
def busy (s : State) : State := { s with dev := { s.dev with cores := [(0, { outs := [{ out0 with q := 64 }] })] } }
def cmd0 : InstCmd := { tag := 0x11, seq := 5, addr := 2 ^ 30 - 2048 }

theorem wit_foremanAnswers : ∀ tag ∈ [0x10, 0x11, 0x12, 0x13, 0x14, 0x20, 0x21], let m := mail 0 0 tag 5
    let s := sI {} m
    ForemanMail s m (taken s) ∧ m.tag.toNat = tag ∧ (taken s).foremanCheck m = .inl (some 0, 3) ∧ 3 < 65536 := by
  intro tag h
  have k : ∀ tag ∈ [0x10, 0x11, 0x12, 0x13, 0x14, 0x20, 0x21], let m := mail 0 0 tag 5
    let s := sI {} m
    (s.dev.mgmtOn = true ∧ (s.dev.mailbox mbForeman).msgs = [m]) ∧ m.tag.toNat = tag ∧ (taken s).foremanCheck m = .inl (some 0, 3) ∧ 3 < 65536 := by
    decide +kernel
  exact ⟨mail_of (k tag h).1, (k tag h).2⟩

/-- Roots of stage 2: none, one in the memory of physical function 0, one out of line, one in the slot. -/
theorem wit_stage2 : (∀ x ∈ [(0x20, 0), (0x20, 0x10000), (0x20, 0x10001), (0x20, 0x40000000), (0x21, 0)], let m := mail x.2 0 x.1 5
      let s := sI { state := .running } m
      (s.dev.mgmtOn = true ∧ (s.dev.mailbox mbForeman).msgs = [m]) ∧ passes s m = true ∧ m.addr.toNat = x.2)
    ∧ (let d := taken (sI { state := .running } (mail 0 0 0x20 5))
       d.pf0Memory 0 0x10000 = true ∧ d.pf0Memory 0 0x40000000 = false) := by decide +kernel

theorem wit_foremanCheck : ∀ tag ∈ [0x11, 0x12, 0x13, 0x20], let m := mail 0 0 tag 5
    let d := devI {} m
    (({ d with start := { state := .oasis } } : Dev).start.state = .oasis ∧ d.start.state ≠ .oasis)
    ∧ (foremanTags.contains (mail 0 0 0x22 5).tag.toNat = false ∧ 256 ≤ (mail 0 256 tag 5).len.toNat ∧ m.tag.toNat ∈ [0x11, 0x12, 0x13, 0x20] ∧ m.len.toNat < 256)
    ∧ (d.slot m.len.toNat = some slot0 ∧ d.partOfLode (m.len.toNat / 64) = some 0 ∧ d.partRuns 0 = true)
    ∧ ({ d with parts := [(0, { state := .down })] } : Dev).partRuns 0 = false ∧ ((devI { cmd := some cmd0 } m).inst 0).cmd.isSome
    ∧ ((d.inst 0).cmd = none ∧ permitted m.tag.toNat (d.inst 0).state = false ∧ permitted m.tag.toNat ((devI { state := .frozen } m).inst 0).state = true) := by
  decide +kernel

theorem wit_instReset : let m := mail 0 0 0x10 5
    let s := sI { state := .running } m
    (∀ r ∈ [s, busy s], (r.dev.slices = [] ∧ r.dev.tasks = [] ∧ r.dev.seif.colls = [] ∧ r.dev.stage < 3 ∧ r.dev.slot 0 = some slot0
      ∧ r.dev.partOfLode (0 / 64) = some 0 ∧ r.dev.partRuns 0 = true ∧ (r.dev.inst 0).state = .running ∧ (r.dev.inst 0).cmd = none)
      ∧ (r.dev.mgmtOn = true ∧ (r.dev.mailbox mbForeman).msgs = [m]) ∧ m.tag = 0x10 ∧ passes r m = true ∧ r.dev.host.link = .up ∧ r.dev.fnThere (0 + 1) = true)
    ∧ s.dev.fnQuiet 0 = true ∧ (busy s).dev.fnQuiet 0 = false := by decide +kernel

/-- Freezes: the record area at the slot's start and at its end; an address out of line, and one past the slot. -/
theorem wit_freeze : ∀ a ∈ [0, 2 ^ 30 - 2048, 1, 2 ^ 30], ∀ st ∈ [InstState.running, .frozen], let m := mail a 0 0x11 5
    let s := sI { state := st } m
    (s.dev.mgmtOn = true ∧ (s.dev.mailbox mbForeman).msgs = [m]) ∧ passes s m = true ∧ s.dev.slices = [] ∧ s.dev.stage < 3 ∧ m.tag = 0x11
    ∧ m.addr.toNat = a ∧ (s.dev.inst 0).state = st ∧ ∀ x ∈ s.dev.queues, s.dev.haltedBlocks x.1 = [] := by decide +kernel

theorem wit_drain : let s := sI { state := .freezing, cmd := some cmd0 } (mail 0 0 0 0)
    (∀ r ∈ [s, busy s], r.dev.slices = [] ∧ r.dev.slot 0 = some slot0 ∧ r.dev.partOfLode (0 / 64) = some 0 ∧ r.dev.partRuns 0 = true ∧ r.dev.stage < 3
      ∧ (r.dev.inst 0).state = .freezing ∧ (r.dev.inst 0).cmd = some cmd0)
    ∧ s.dev.drained 0 = true ∧ (busy s).dev.drained 0 = false ∧ cmd0.addr < slot0.sizeGib * 2 ^ 30 := by decide +kernel

theorem wit_thaw : ∀ st ∈ [InstState.frozen, .saved], let m := mail 0 0 0x14 5
    let s := sI { state := st } m
    (s.dev.mgmtOn = true ∧ (s.dev.mailbox mbForeman).msgs = [m]) ∧ passes s m = true ∧ m.tag = 0x14 ∧ (s.dev.inst 0).recCount = 0 ∧ s.dev.tasks = [] := by
  decide +kernel

/-- A save to 0x10000. -/
def mSave : MailMsg := mail 0x10000 0 0x12 5
def sSave : State := sI { state := .frozen } mSave
def dSave : Dev := (taken sSave).cmdBegin 0 mSave .saving
def record0 : List Byte := dSave.saveRecord 0 0 slot0
theorem wit_save : ForemanMail sSave mSave (taken sSave) ∧ passes sSave mSave = true ∧ sSave.dev.slices = [] ∧ sSave.dev.stage < 3 ∧ mSave.tag = 0x12
    ∧ mSave.addr.toNat % 4096 = 0 ∧ (taken sSave).pf0Range 0 true mSave.addr.toNat (0x1000 + 0x2000 * ((taken sSave).blocksOf 0).length) = true
    ∧ (dSave.cpWriteFor 0 (pf0 0) none (record0.length / 128 + 2) mSave.addr.toNat record0.length (ofBytes record0)).2 = .ok 0 :=
  ⟨mail_of (by decide +kernel), by decide +kernel⟩

/-- A restore from 0x10000, where a record of 1 queue block stands or, with nothing in memory, none. -/
def mRestore : MailMsg := mail 0x10000 0 0x13 5
def recHead : Nat := 0x53495A53 + 1 <<< 32 + 1 <<< 48 + 1 <<< 160
def sRestore (m : List Host.Cell) : State := { dev := { devI { state := .frozen } mRestore with mem := m } }
def memRec : List Host.Cell := Mem.writeNat (Mem.writeNat [] 0x10000 32 recHead) 0x10FFC 4 0xC1A44EC6
def dRestore (m : List Host.Cell) : Dev := (taken (sRestore m)).cmdBegin 0 mRestore .restoring
def dRead : Dev := ((dRestore memRec).cpRead 0 (pf0 0) mRestore.addr.toNat 0x1000).1
def recV : Nat := recHead + 0xC1A44EC6 <<< (8 * 0xFFC)
def dBack : Dev := (dRead.cpRead 0 (pf0 0) mRestore.addr.toNat 0x3000).1.restoreApply 0 0 1 slot0 recV

theorem wit_restore : (∀ m ∈ [[], memRec], let s := sRestore m
      (s.dev.mgmtOn = true ∧ (s.dev.mailbox mbForeman).msgs = [mRestore]) ∧ passes s mRestore = true ∧ s.dev.slices = [] ∧ s.dev.stage < 3 ∧ mRestore.tag = 0x13
      ∧ mRestore.addr.toNat % 4096 = 0 ∧ (taken s).pf0Range 0 false mRestore.addr.toNat 0x1000 = true ∧ s.dev.queues = []
      ∧ (((dRestore m).cpRead 0 (pf0 0) mRestore.addr.toNat 0x1000).1.inst 0).cmd.isSome)
    ∧ ((dRestore []).cpRead 0 (pf0 0) mRestore.addr.toNat 0x1000).2 = .ok 0 ∧ bytesAt 0 0 4 ≠ 0x53495A53
    ∧ ((dRestore memRec).cpRead 0 (pf0 0) mRestore.addr.toNat 0x1000).2 = .ok recV ∧ bytesAt recV 0 4 = 0x53495A53 ∧ bytesAt recV 4 2 = 1 ∧ bytesAt recV 6 2 = 1
    ∧ (dRead.cpRead 0 (pf0 0) mRestore.addr.toNat (0x1000 + 0x2000 * bytesAt recV 6 2)).2 = .ok recV := by decide +kernel

/-- The CRC of a list with the number that it has come to known at every byte. -/
def crcGo : List Byte → Nat → Nat
  | [], c => c
  | b :: bs, 0 => crcGo bs (crc32Byte 0 b)
  | b :: bs, n + 1 => crcGo bs (crc32Byte (n + 1) b)
theorem crcGo_eq (bs : List Byte) (c : Nat) : bs.foldl crc32Byte c = crcGo bs c := by
  induction bs generalizing c with
  | nil => rfl
  | cons b bs ih => cases c <;> simp only [List.foldl_cons, crcGo, ih]
/-- What the CRC comes to after 24 bytes of the record and after each 1,226 bytes of zeros. -/
def recCrcs : List Nat := [0x26B740F7, 0xC1FA004C, 0x7059C785, 0x579FEEAF, 0xA12EBED4, 0x17D7E8CA, 0xA966A07C, 0xCB588528, 0x860F1869, 0x52F1A90, 0x3E5BB139]
theorem toBytes_add (v a b : Nat) : toBytes v (a + b) = toBytes v a ++ toBytes (v / 256 ^ a) b := by
  induction a generalizing v with
  | zero => simp [toBytes]
  | succ a ih => rw [Nat.add_right_comm]; simp only [toBytes, List.cons_append, ih, Nat.div_div_eq_div_mul, Nat.pow_succ, Nat.mul_comm]
theorem toBytes_zero (n : Nat) : toBytes 0 n = List.replicate n 0 := by
  induction n with
  | zero => rfl
  | succ n ih => simp only [toBytes, Nat.zero_div, ih, List.replicate_succ]; rfl
theorem toBytes_low (u w n : Nat) : toBytes (u + w * 256 ^ n) n = toBytes u n := by
  induction n generalizing u w with
  | zero => rfl
  | succ n ih =>
    have h : u + w * 256 ^ (n + 1) = u + 256 * (w * 256 ^ n) := by rw [Nat.pow_succ]; ac_rfl
    simp only [toBytes, h, Nat.add_mul_div_left _ _ (by decide : 0 < 256), ih]
    congr 1
    apply BitVec.eq_of_toNat_eq
    simp
theorem length_toBytes (v n : Nat) : (toBytes v n).length = n := by
  induction n generalizing v with
  | zero => rfl
  | succ n ih => simp [toBytes, ih]
theorem take_toBytes (v a b : Nat) : (toBytes v (a + b)).take a = toBytes v a := by
  rw [toBytes_add, List.take_append_of_le_length (Nat.le_of_eq (length_toBytes v a).symm), List.take_of_length_le (Nat.le_of_eq (length_toBytes v a))]
theorem drop_toBytes (v a b : Nat) : (toBytes v (a + b)).drop a = toBytes (v / 256 ^ a) b := by
  rw [toBytes_add, List.drop_append_of_le_length (Nat.le_of_eq (length_toBytes v a).symm), List.drop_of_length_le (Nat.le_of_eq (length_toBytes v a)), List.nil_append]
theorem record_bytes : (toBytes recV (0x1000 + 0x2000 * 1)).take 0xFFC ++ (toBytes recV (0x1000 + 0x2000 * 1)).drop 0x1000
    = toBytes recHead 24 ++ List.replicate 12260 0 := by
  rw [show (0x1000 + 0x2000 * 1 : Nat) = 0xFFC + 0x2004 from rfl, take_toBytes, show (0xFFC + 0x2004 : Nat) = 0x1000 + 0x2000 from rfl, drop_toBytes,
    show recV / 256 ^ 0x1000 = 0 by decide +kernel, show recV = recHead + 0xC1A44EC6 * 256 ^ 0xFFC by decide +kernel, toBytes_low,
    show (0xFFC : Nat) = 24 + 4068 from rfl, toBytes_add, show recHead / 256 ^ 24 = 0 by decide +kernel, toBytes_zero, toBytes_zero, List.append_assoc,
    List.replicate_append_replicate]
theorem crc_parts : crcGo (toBytes recHead 24) 0xFFFFFFFF = recCrcs.getD 0 0 ∧ ∀ k, k < 10 → crcGo (List.replicate 1226 0) (recCrcs.getD k 0) = recCrcs.getD (k + 1) 0 := by
  decide +kernel
theorem crc_zeros (k : Nat) (h : k ≤ 10) : (List.replicate (1226 * k) 0).foldl crc32Byte (recCrcs.getD 0 0) = recCrcs.getD k 0 := by
  induction k with
  | zero => rfl
  | succ k ih => rw [Nat.mul_succ, ← List.replicate_append_replicate, List.foldl_append, ih (Nat.le_of_succ_le h), crcGo_eq, crc_parts.2 k h]
theorem r1 : recCrcs.getD 10 0 ^^^ 0xFFFFFFFF = bytesAt recV 0xFFC 4 := by decide +kernel
theorem r2 : (toBytes recHead 24 ++ List.replicate 12260 0).foldl crc32Byte 0xFFFFFFFF = recCrcs.getD 10 0 := by
  rw [List.foldl_append, crcGo_eq (toBytes recHead 24), crc_parts.1]
  exact crc_zeros 10 (Nat.le_refl 10)
theorem crc32_of {bs : List Byte} {c : Nat} (h : bs.foldl crc32Byte 0xFFFFFFFF = c) : crc32 bs = c ^^^ 0xFFFFFFFF := by rw [← h]; rfl
theorem record_crc : crc32 ((toBytes recV (0x1000 + 0x2000 * 1)).take 0xFFC ++ (toBytes recV (0x1000 + 0x2000 * 1)).drop 0x1000) = bytesAt recV 0xFFC 4 :=
  ((congrArg crc32 record_bytes).trans (crc32_of r2)).trans r1
theorem wit_restored : ∃ c, (dBack.inst 0).cmd = some c ∧ c.step = 1 ∧ (dBack.inst 0).recCount = 0 := by
  simp only [dBack, Dev.restoreApply, record_crc, ne_eq, not_true_eq_false, if_false]
  exact (some_of (fun c => c.step == 1) (by decide +kernel)).imp fun c h => ⟨h.1, by simpa using h.2, by decide +kernel⟩

theorem wit_queueRecord : let x : Queue := { queue0 with retired := 1, producer := 9, fetched := 9, ended := [(1 + 3, false), (1 + 255, true)] }
    let d := devT task0
    d.pconf 0 = some { first := 0, lodes := 4 } ∧ ({ d with queues := [(0, x)] } : Dev).queue 0 = x ∧ x.state ≠ .free ∧ d.bindingOk 0 x.binding = true
    ∧ x.ringVa < 2 ^ 64 ∧ x.log2 < 256 ∧ x.prio < 4 ∧ x.timeout < 2 ^ 32 ∧ x.errStatus < 65536 ∧ x.producer < 2 ^ 64 ∧ x.retired < 2 ^ 64
    ∧ x.errIndex < 2 ^ 64 ∧ x.squashed < 2 ^ 32 := by decide +kernel

/-! ## Power and start -/

/-- Core rails at 800 mV, a hot monitor of rail 0, a budget that waits. -/
def devW : Dev :=
  { dev0 with conf := { conf0 with tj := 95, bmin := 2800, bmax := 4600, ceil := [800, 0, 0, 0] },
              power := { dev0.power with set := List.replicate 16 800, next := 3000, temps := [(((railMonitors 0).head?).getD 0, 95)] },
              mgmt := { addr := some 8 } }
def sW (stage : Nat) : State := { dev := { devW with stage := stage } }
theorem wit_powerLoop : (∀ k ∈ [0, 2, 3], (sW k).dev.live = true ∧ (sW k).dev.stage < 4 ∧ (sW k).dev.stage = k ∧ (sW k).dev.i3cUp = true ∧ (sW k).dev.mgmt.addr.isSome)
    ∧ (sW 0).dev.power.next ≠ 0 ∧ dev0.power.next = 0
    ∧ (∀ x, x < 16 → ((sW 0).dev.railPart x).isSome) ∧ sTop.dev.railPart 15 = some 3 ∧ sTop.dev.railPart 4 = none
    ∧ (∃ m ∈ railMonitors 0, (sW 0).dev.conf.tj ≤ sget 0 (sW 0).dev.power.temps m)
    ∧ (15 < 16 ∧ 550 ≤ 550 ∧ 799 < (sW 0).dev.power.set.getD 15 0)
    ∧ (∀ m ∈ [0, 159, 160, 255, 256, 263], (sW 0).dev.monitorOn m = true)
    ∧ (∀ v ∈ [2800, 4600], (sW 0).dev.conf.bmin ≤ v ∧ v ≤ (sW 0).dev.conf.bmax) ∧ 2799 < (sW 0).dev.conf.bmin ∧ (sW 0).dev.conf.bmax < 4601 := by
  decide +kernel

/-- Nine samples below the thresholds of the first `k` stages. -/
def sSag (stage k : Nat) : State :=
  { dev := { dev0 with stage := stage, power := { dev0.power with below := List.replicate k 9 ++ List.replicate (5 - k) 0 } } }
theorem wit_sag : (∀ k ∈ [1, 2, 3, 4, 5], let s := sSag (k - 1) k
      let mv := sagEntry.getD (k - 1) 0 - 1
      s.dev.mgmtOn = true ∧ s.dev.power.armed = true ∧ s.dev.stage + 1 = k ∧ s.dev.power.below.length = 5
      ∧ (∀ j, j < k → 9 ≤ s.dev.power.below.getD j 0 ∧ mv < sagEntry.getD j 0) ∧ (∀ j, j < 5 → k ≤ j → sagEntry.getD j 0 ≤ mv ∨ s.dev.power.below.getD j 0 < 9))
    ∧ ((sSag 0 1).dev.stage = 0 ∧ 40000 ≤ 40000) ∧ 5 ≤ (sSag 5 0).dev.stage
    ∧ (∀ k ∈ [0, 1, 2, 3], ∀ n ∈ [1000, 1001], let s : State := { dev := { dev0 with stage := k + 1, power := { dev0.power with above := List.replicate 4 n } } }
        s.dev.stage = k + 1 ∧ k < 4 ∧ s.dev.power.above.getD k 0 = n)
    ∧ (dev0.power.pins.pwrOk = true ∧ dev0.power.armed = true ∧ ({ dev0.power with armed := false } : PowerSt).armed = false) := by decide +kernel

def sFlow (ok long : Bool) (at' : Nat) : State :=
  { dev := { dev0 with time := 5000000, power := { dev0.power with pins := { dev0.power.pins with flowOk := ok }, flowAt := at', flowOver := long } } }
theorem wit_stops : (sFlow true false 0).dev.mgmtOn = true ∧ (sFlow true false 0).dev.power.pins.flowOk = true
    ∧ (∀ n ∈ [0, 1], let s := sFlow false false n
        s.dev.mgmtOn = true ∧ s.dev.power.pins.flowOk = false ∧ s.dev.start.state ≠ .starting ∧ s.dev.power.pins.resetN = true ∧ s.dev.power.flowOver = false
        ∧ s.dev.live = true ∧ (n = 0 → s.dev.power.flowAt + 5000000 ≤ s.dev.time) ∧ (n = 1 → s.dev.time < s.dev.power.flowAt + 5000000))
    ∧ (dev0.monitorOn 0 = true ∧ dev0.live = true ∧ 114 < 115 ∧ 115 ≤ 115)
    ∧ (dev0.mgmtOn = true ∧ dev0.stage < 5 ∧ ({ dev0.sec with sealSt := .unsealed } : SecSt).sealSt = .unsealed)
    ∧ ({ dev0.power.pins with vin30 := false } : Pins).vin30 = false := by decide +kernel

/-- A device in which no start has ended: the levels of RESET_N and PWR_OK, the state of the start, the start record. -/
def sStart (resetN pwrOk : Bool) (st : StartState) : State :=
  { dev := { start := { state := st, phase := 2 }, power := { pins := { resetN := resetN, pwrOk := pwrOk } }, host := hostOpen } }
def entry0 (o : StartOutcome) (n : Nat) : StartEntry := { outcome := o, consecFail := n, startCount := 1, reason := 0 }
theorem wit_starts : (∀ b ∈ [true, false], let s := sStart false b .idle
      s.dev.power.pins.resetN = false ∧ s.dev.mgmtOn = true ∧ s.dev.stage < 5 ∧ s.dev.power.pins.pwrOk = b ∧ s.dev.start.state = .idle)
    ∧ (∀ b ∈ [true, false], let s := sStart b false .idle
      s.dev.power.pins.pwrOk = false ∧ s.dev.mgmtOn = true ∧ s.dev.stage < 5 ∧ s.dev.power.pins.resetN = b ∧ s.dev.start.state = .idle)
    ∧ ((sStart true true .retryWait).dev.mgmtOn = true ∧ (sStart true true .retryWait).dev.start.state = .retryWait)
    ∧ (let s := sStart true true .oasis
       s.dev.barOpen 0 = true ∧ s.dev.mgmtOn = true ∧ s.dev.start.state = .oasis ∧ s.dev.failures = 0 ∧ s.dev.stage < 5 ∧ s.dev.start.state ≠ .retryWait)
    ∧ (({ flash := { record := [entry0 .oasis 3] } } : Dev).failures ≠ 0 ∧ (sStart true true .starting).dev.barOpen 0 = true
      ∧ (sStart true true .starting).dev.start.state = .starting)
    ∧ ((0x1C1EA : Word).toNat % 65536 = 0xC1EA ∧ (0xC1EB : Word).toNat % 65536 ≠ 0xC1EA) := by decide +kernel

def sectionOf (type length : Nat) (body : ImgBody) : ImgSection := { type := type, version := 1, length := length, body := body }
/-- An RSASSA-PSS signature of a digest of zeros under Irxis key 0, made outside the model. -/
def signature0 : Nat :=
  0x2951A0CAC77B5488EAB77DD5B11801D38860B562AF564844E3B692055C68DB2403C68098B68F118076938FF565D5CB3CBD511137E88A2DBEB57FA43A1301B08D8C35C222512F7BD19CBD76FB31A4F10FFA7BCD5335CE183B38E3AF299FD53EC39A871455DFC6E72C340A834123481063438062FD56FD20F603B0E3980F85884A682AED9BBEA3F92C5821374222A7770903A80A148B6E4815C26C821274F8A2E1DC3363348B2051BF58558EFB396D5715068D0664B4E1F95CF599F85F9DF91D31098C0EDB32D4E68EB8B0D0EF96C44A6C14592D5B194CEBC46E602C0CFA778C0CFB27640575581E5B42FDAE6A214BAB6F44AA3C7BA845D3DE34C65EB2AD2E46DE4828D4C80AE53173FA428B6CD5366010C7F8940DF0D05648C53118E9234A683DDD37B3F7B38757A5828C90674E3DE973CD21D4D0441CA6F918876E8DDC48A4B035252F124C3CA94E92C18934D9949C6C51FAD556DFCD6246C7623F3C3AF365DCA2B2F450AAA0D92F0B50507886E79F4065E5C05C239CE3A940CA677D2EA9B8E2AE28CF4009E362789DFF3A5A47C8A81BF36BF09FC2027B614DFFFF0E86E4D1D3DBF3D96817056ED3A64FA96B87CC05B17830EB00A29C0B04C1EA76A3839D21EC075EA3449E557E41A658ED1CCE185F4B0D6B66611CE4BBB21CC68E8AD67E2B4FF46E96329170E922D0B9884C3A3D688EA84188C3329DB331251FDC866ED6E31E
/-- An image of layout 0 that passes phase 2. -/
def image0 : Image :=
  { header := { imageLength := 1776, imageId := 7 },
    sections := [sectionOf 1 0 (.firmware 1), sectionOf 2 0 (.firmware 2), sectionOf 0x10 0 (.partitionTable 0), sectionOf 0x11 8 (.instanceSlots true []),
      sectionOf 0x12 32 (.powerEnvelope 2800 4600 [2800, 0, 0, 0] [800, 0, 0, 0] 750 200 95 true), sectionOf 0x13 8 (.memoryOptions 0 0 0 true),
      sectionOf 0x14 0 (.linkMaps true 1 (List.replicate 16 0) []), sectionOf 0x15 0 (.queueBudgets [] [] 60000000),
      sectionOf 0x16 0 (.resources { base := 0, size := 0x200000 } [{ base := 0x10000000, size := 0x8000000 }] { base := 0x4000000, size := 0x2000000 } [(2, 1)]),
      sectionOf 0x17 16 (.ledgerPolicy 1000 0 true), sectionOf 0x18 0 (.optionSwitches [] [] [] true 4),
      sectionOf 0xFF 0x610 (.signature 1 0 0 true 0 signature0 0)] }
theorem image0_passes : phase2Reason {} image0 = 0 := by decide +kernel

def devFlash (im : Image) (l : List StartEntry) : Dev := { flash := { image := some im, record := l } }
theorem wit_startRuns : (∀ l ∈ [[], [entry0 .failed 1], [entry0 .failed 2], [entry0 .failed 3], [entry0 .oasis 3]], ∀ im ∈ [image0, {}], let d := devFlash im l
      d.power.pins.flowOk = true ∧ d.flash.record.length < 1022 ∧ d.failures = (l.map (fun e => e.consecFail)).headD 0)
    ∧ (∀ im, (devFlash im []).flash.image = some im) ∧ phase2Reason {} {} ≠ 0 ∧ ({} : Fuses).keyTagOk = true
    ∧ (∀ o ∈ [StartOutcome.failed, .oasis], ((devFlash {} [entry0 o 3]).record.map (fun x => x.outcome)) = some o) :=
  ⟨by decide +kernel, fun _ => rfl, by decide +kernel, rfl, by decide +kernel⟩

/-! ## The ledger, time -/

def slots7 : Conf := { conf0 with ledger := { base := 0x4000000, size := 7 * 0x402000 }, ledgerInterval := 100 }
/-- The ledger with the open page `ticks` ticks old, pages that wait, and the indices of the window. -/
def devLdg (ticks : Nat) (waiting : List Page) (produced consumed : Nat) : Dev :=
  { dev0 with conf := slots7, host := hostOpen,
              ledger := { running := true, page := { ticks := ticks }, waiting := waiting, produced := produced, consumed := consumed } }
def sLdg (ticks : Nat) (waiting : List Page) (produced consumed : Nat) : State := { dev := devLdg ticks waiting produced consumed }
theorem wit_ledger : (∀ x ∈ [(998, []), (999, []), (999, [({} : Page)])], let s := sLdg x.1 x.2 0 0
      s.dev.tasks = [] ∧ s.dev.ledger.running = true ∧ s.dev.ledger.page.tickets.length < 65536)
    ∧ (998 + 1 < slots7.ledgerInterval * 10 ∧ slots7.ledgerInterval * 10 ≤ 999 + 1)
    ∧ (∀ n ∈ [9, 10], let s := sLdg 0 [{}] n 3
        s.dev.ledger.waiting = {} :: [] ∧ s.dev.stage < 4 ∧ s.dev.live = true ∧ s.dev.barOpen 0 = true ∧ s.dev.mgmtOn = true
        ∧ (n = 10 → s.dev.ledger.consumed + s.dev.pageSlots ≤ s.dev.ledger.produced)
        ∧ (n = 9 → s.dev.ledger.produced < s.dev.ledger.consumed + s.dev.pageSlots))
    ∧ ((sLdg 0 [] 9 3).dev.ledger.waiting = [] ∧ (sLdg 0 [] 9 3).dev.ledger.consumed ≤ 9 ∧ 9 ≤ (sLdg 0 [] 9 3).dev.ledger.produced
      ∧ (sLdg 0 [] 9 3).dev.ledger.consumed ≤ 3 ∧ 2 < (sLdg 0 [] 9 3).dev.ledger.consumed ∧ (sLdg 0 [] 9 3).dev.ledger.produced < 10)
    ∧ (([(1, 0), (2, 3), (3, 3)].map (fun x : Nat × Nat => x.1)).Nodup ∧ 0 < ([(1, 0), (2, 3), (3, 3)].map (fun x : Nat × Nat => x.2)).sum) := by
  decide +kernel

def sPps (on : Bool) (first : Option Nat) : State := { dev := { dev0 with time := 7, conf := { conf0 with pps := on }, pps := { first := first } } }
theorem wit_time : (∀ k ∈ [0, 4], let s : State := { dev := { devT task0 with stage := k, insts := [(0, { state := .running })] } }
      s.dev.mgmtOn = true ∧ s.dev.power.pins.resetN = true ∧ s.dev.pps.err = 0 ∧ s.dev.sec.run = none ∧ s.dev.host.waiting = []
      ∧ (∀ x ∈ s.dev.insts, x.2.cmd = none ∧ x.2.state ≠ .resetting) ∧ s.dev.stage = k)
    ∧ State.reset.dev.power.pins.resetN = false
    ∧ (∀ x ∈ [(false, none), (true, none), (true, some 0), (true, some 7)], let s := sPps x.1 x.2
      s.dev.live = true ∧ s.dev.conf.pps = x.1 ∧ s.dev.pps.first = x.2 ∧ (∀ f ∈ x.2, f ≤ s.dev.time)) := by decide +kernel

/-! ## The seal, tokens and fuses -/

/-- The assayer's mailbox holds one message; the current nonce is 5, issued at time 0; the image's version is 3. -/
def devSec (m : MailMsg) (st : SealState) : Dev :=
  { dev0 with time := 10000000000, host := { hostOpen with cfg := [(0, { memEnable := true, busMaster := true })] },
              start := { state := .ready, version := 3, keyReady := true }, sec := { sealSt := st, nonce := some (5, 0) }, mbox := [(mbSecure, { msgs := [m] })] }
def sSec (m : MailMsg) (st : SealState) : State := { dev := devSec m st }
def takenS (s : State) : Dev := s.dev.setMailbox mbSecure { s.dev.mailbox mbSecure with msgs := [] }
/-- The command of a tag finds this message, and no other, in the mailbox. -/
def mailed (s : State) (tag : Nat) (m : MailMsg) : Bool :=
  s.dev.mgmtOn && m.tag.toNat == tag && (match secureLength tag with | some n => m.len.toNat == n | none => true) && decide ((s.dev.mailbox mbSecure).msgs = [m])
theorem secure_of {s : State} {tag : Nat} {m : MailMsg} (h : mailed s tag m = true) : SecureMail s tag m (takenS s) := by
  simp only [mailed, Bool.and_eq_true, beq_iff_eq, decide_eq_true_eq] at h
  obtain ⟨⟨⟨h1, h2⟩, h3⟩, h4⟩ := h
  exact ⟨h1, h2, fun n hn => by rw [hn] at h3; exact eq_of_beq h3, [], h4, rfl⟩

def fuses2 : Fuses := { counter := 2 }
def spent : Fuses := { ownerDigest := some 1 }
theorem wit_secure : SecureMail (sSec (mail 0 32 1 5) .sealed) 1 (mail 0 32 1 5) (takenS (sSec (mail 0 32 1 5) .sealed))
    ∧ ((sSec (mail 0 0 0 5) .sealed).dev.mgmtOn = true ∧ (sSec (mail 0 0 0 5) .sealed).dev.sec.nonce = some (5, 0)
      ∧ 0 + 10000000000 ≤ (sSec (mail 0 0 0 5) .sealed).dev.time ∧ s0.dev.time < 0 + 10000000000)
    ∧ (∀ v ∈ [1, 2, 3, 4, 129], ∀ st ∈ [SealState.sealed, .unsealed], let m := mail 0 v 4 5
        SecureMail { sSec m st with fuses := fuses2 } 4 m (takenS { sSec m st with fuses := fuses2 }))
    ∧ (fuses2.counter ≤ 2 ∧ 2 ≤ (devSec (mail 0 0 0 0) .sealed).start.version ∧ fuses2.counter < 3 ∧ 3 ≤ (devSec (mail 0 0 0 0) .sealed).start.version ∧ 1 < fuses2.counter
      ∧ (devSec (mail 0 0 0 0) .sealed).start.version < 4 ∧ (devSec (mail 0 0 0 0) .sealed).isSealed = true ∧ (devSec (mail 0 0 0 0) .unsealed).isSealed = false)
    ∧ (let m := mail 0 512 5 5
       ∀ u ∈ [({} : Fuses), spent], SecureMail { sSec m .sealed with fuses := u } 5 m (takenS { sSec m .sealed with fuses := u }))
    ∧ (({} : Fuses).ownerDigest = none ∧ spent.ownerDigest.isSome ∧ (takenS (sSec (mail 0 512 5 5) .sealed)).assayerHost = true)
    ∧ (∀ x ∈ [(1, 33), (2, 1087), (3, 0), (5, 511), (6, 1089), (7, 4)], let m := mail 0 x.2 x.1 5
        (sSec m .sealed).dev.mgmtOn = true ∧ ((sSec m .sealed).dev.mailbox mbSecure).msgs = m :: [] ∧ m.tag.toNat = x.1
        ∧ (∃ n, secureLength x.1 = some n ∧ m.len.toNat ≠ n) ∧ (sSec m .sealed).dev.sec.run = none) := by
  refine ⟨secure_of (by decide +kernel), by decide +kernel, ?_, by decide +kernel, ?_, by decide +kernel, ?_⟩
  · intro v hv st hst
    have h : ∀ v ∈ [1, 2, 3, 4, 129], ∀ st ∈ [SealState.sealed, .unsealed], mailed { sSec (mail 0 v 4 5) st with fuses := fuses2 } 4 (mail 0 v 4 5) = true := by decide +kernel
    exact secure_of (h v hv st hst)
  · intro m u hu
    have h : ∀ u ∈ [({} : Fuses), spent], mailed { sSec (mail 0 512 5 5) .sealed with fuses := u } 5 (mail 0 512 5 5) = true := by decide +kernel
    exact secure_of (h u hu)
  · intro x hx
    simp only [List.mem_cons, List.not_mem_nil, or_false] at hx
    rcases hx with rfl | rfl | rfl | rfl | rfl | rfl
    all_goals exact ⟨by decide +kernel, by decide +kernel, by decide +kernel, ⟨_, rfl, by decide +kernel⟩, by decide +kernel⟩

/-- RSASSA-PSS signatures under Irxis key 0 of tokens of serial 1 and nonce 5 with purposes 1 to 4, made outside the model. -/
def signatures : List Nat := 
  [0xB9F66CA7D6829BBC9DE4DA17BA7E38B081894D1024C6FD540B6318735E9AA8D01ACFECFB995693B8160E8E251A5DD8714E59ECF3C0C0C6769C197CFDE17D0E6916D9B1AD8389ECC35CD6D18614525F36823EBD1B50BFB80E5FA85961EBF7FE92906091EC7129EF77C2313CA75E830F073692EBB93926C7278ABCCA97C80AA807B3D0C1092410B2FA6214B93F649F8FC15F1CECBA46FD5A666A7671F92013DAE9B6B9C9E127D272DA2DEC6A18D67C91A9FEA04E7C7A077BF7590D13C6D0529AD71160CE7468F62321450AE0F60948B9EEBAE8C6321955A70F473B5AAE975882AE40EECB0FC66DD91B3FFCF0AC3F5AFABE22AC290889F6D3FE6E0E0E448339E5C96C19C03E0B4D6D849DDBBE39AD183523884B709DF87E22C163443FF32548C6E048A29AFD30C443C7B534A9EA5AC30978790864FAFBF4DA215D5F1F15773BC70935AE5A5BF1504D612A21C89141AD06106108E94636EFB6880576E624C2ECEE0C6DA3CE9B85FB34A2F910E2376884A47F266C66CCB14E30706CCB8E6B7BA7C00754D7EDFCD78866E7F3F02A0A26277EC6682C667F51313E2C759D564F96E9D9DEBC48AB00A83107E20DDC7CC16C8CF1980B212ECB39335054919357B9BFA688474426DC1D96AFE97FA8A3C2210496ADF0B0466F0109F089126CA5938A5B4D9C1DD86D1F63EB2A1C0903F4D50730B2113079B6EB06EC193A2E3D1949C346EEC881,
   0x233029E0222611BA5C03EC372A3DA65ABCD177864697542DDAC5C2E05FE49FA7C9840111EFE91BC6903D590B26EE09E9366464E0D041AAD55BA380152FD5F2171622DBB8F193CC61A7F8B02BFC8AB539ACE4BB07CA98E6C7C77DE7E8516F9E0ACAC15A3EEFF58C99F84522D76EE7990143790E97B48250074284BD1479B6D6BBC9C4B9369B19901E6B51E484A644D25C0E5D9B55D22D18E65A280A29609E151A0DE92CC3348245392D9B61BAE555ECA75210757839C3982A282F91F8E00CBC357B9CCA13B7B7CCBD9A63D61D0F35266FF7E921A160762F15B5551D9C1315B87FF96F2F2B52124D502D996D341C15B9A1E17FFAFEF21B2374A7EB4A7F615235D77CD3399BF1D4E3D110C2215F817B47F67553E868E7C7C243DC7553DFCDBF44ED5670FD1223DC6DBE34BB68EC8D96F5B56DB550D906D8D074405F38CBAD5761C7EA6F44363246821D9AC5A7011684145B119B2F7C15F1BC59C3CBBAD36D3583B92DFC5DA19188C80E815346B10D12FEDBEED56F6E8BA90310B2E2CB4E56C5DEFCAD20769C932B546B8F2711F6F93E65A5B50CC87F8B5FA1F4139C2F9A7510C85D274787CD48DDC0E35178C713CAA64D6183376C41E566DA6D580049FAF9379A846F047D6F31A7F7C86A4F0D5D9B2A909E743559991D40512CB43B6A2079CC0CDD6E5AE59162DDEE9BB4DF23358F11C6504267180C80E8F60EC602388B00FA3044,
   0x8CB9174F339D78A3F3C4704641018985359D21A95F9C862B7BA369CB3B8E2486E39D91EDDA1304E0F997664EF4BDB38863E69D98138E7154C476B42005895F47C80C9BF10D24BFD3F0544B783E6F62D91C1EB8993FA2346AD56828B5625F9B717C92FF8D800FF273D4B21B697C9B7A65E72CA126B3F93C682AF46A0D4DACADB269BD0F997E9D56DEAF1FC6E96407C56E939AEA0336C12514797D829398F41B61F9D4BFA527E8FF578A0C37D859947FC6D928B98D127B8A10ADBD1A9FA7D2AAB4CB2B18EF2046B65ED152B43C94597DB85A5FDB57F8904ED813E46748ED2ADF1816B0CCF86372F934CD214C01E485676E5A399D08719B8C79CF7E524944F5CB64BF12CB36CA5FFA3BDBC5B627AB91B226AB074801C85CD332603448F433D58D2D30CA09C43EE7428A2DDF81CFA8680297DFE731B75816FD0B0D1F84915C00B1A72BECD6EFC9238190794198F141922DAD30D7BFF084C5ECF457F561FD3EC396B91460434A999F3ACC8F29C30DE1E12E23A3089E685AB022BC8AB5F20A0EB899BB580131BBC7E3A30D0DB6F380D3B33638DF35765A4C6888D2936EBA9A63AA586200172966AFFA5AC1C6E2AFBB2C8EBF04B4303D80465409D0FF29C0AB9C77EEECC94DB7DE24EFEA260788E234335683C8FD6B6A4406812D9E74E0D083BB095FA1A06168C22456F4AA700C56C3A018116E0602BB2407EF0D05F3E27791F916923E,
   0x9D6261C6DBFD975BDEE6E5FD279F32EA6F3DD15E1114508A8ED3ABE3CF029AB76605B0F2B0F9EC038E691977326E92AAF69E7BE4272B5E6360188271147526C4B6E3DAC7C9C8203AF82E9EE620CCECC3AC486089320AE900552C89FFFA215E5C208A0855AF553BD5B4C370FCB5B0177117D46E662CAC84E0D83A48501D9D4055E7BE11DF1E0F194E84F7A7F8706405A5840C047259BC20E1F72F1A75C4117EE875643E50921622160C06094722B1AD96BE611953BEA48EE247A7CFD46C4D01120D9AC0FC61F0EB54A21A289C7CBB1B0877C76D750CFBC2B85B0CBDECBA20F0737A56F58BB1D184BD36978F14A8B56B3C8D17899881F60D7F9E144342C778350214510092CBEB07228A4F60A056CCC562056DC65544426C0DE07BACAE0876EE51C2DBA1ECA75E370C0DD7E67E219A56E26D3B8FB2E3D722ECC2AC2EC6021DDB9269D9C7E3CB5012FEB5A56BAF6C6C190EAF46377E146250722F728E9D3EFB3BE8FB0CBBA20E53E28A6D3332561C1D73657AF09EA2425B84683AAA3F52A4F7AE3ED5572703AB11E7F1F29E47EC356B2DE7773CEDAC4EF53022E25915C9E662525B6F4806846CDD678E872F6FE763517DF0B0CEF63B35B4973579263AFB4694CBBA6B929045302BD498512AE7F4D3C53DC3AB37BDB4295E0D1A367B796FE21A9FCD8D1720FBBCE07FF6584869B5434269A68E4CAD9E67627409508D5AE2555B8125,
   0x5D1583D65559303202756DFB62256FB58F7525889AC8DCDED74C10D859F05EC6DE1DCA9D251C30F3310C9CC70EAF040AF22A8C39483DE5C16951CD284B18ED054499576AA733145CB125F242EE0CF2BDBE72EFA8C200FD3FCF413AA0A9BF5282DB0E787F6319CD45831B7A3E27281EFFB0360E82407F3FE7EE8C5A2437CECD0C8471F6428A7CDDD3073B8E29A647DB5D3E58337A37AC8635DD997309B33159FB13A6446529EE88929B2A0B84F3496081BE3DC746324F953EAAC0FF32FDE0ECE3ED4444F5C37F86B238AFCD2A450C55CB314EAC64DB6496CD3ACCC091868E27CCC8D9591CF81F32649338AA9BBE29CD6CF6D88DAEDBA1AD5A5DBCD5407D8D040D2CBB1889BF083F5A5B8FA76992E41EA57BA939F93BF61A70038C0C20386BD4598D17B224023EB25EBA18F33634A6ED2CF696D213862EE9BBB7863B02A793FD552641E6EDC4EEED34D79F55A56189569B0AA03F38C9914CD66F57808FEE236BF5F6F156F39603528E295BB957C5D46BF2F64E4BE6C985A09A8F3C8F88F2036F1D1993B6F13DCC4AAEA7120323010632C5CE8B3CF95E0208337E7396A213E077A16BC108C631E1F1FAFF005FC4844427B41B5B61A31F8B54E05503D6E657DEA9A02E799830A394B574072EC1A696C409C02A90BD4C1F0725A820A0B210F8992C346A5FA7690E82F116A7E67E3A9AEB68D4BE49F0C63E365076FA68F008621208AE]
/-- A token of key 0 with its purpose, its argument and its signature's place in the list. -/
def token (purpose arg n : Nat) : Token :=
  { magic := 0x4B545A53, purpose := purpose, signer := 0, keyIndex := 0, arg := arg, serial := 1, nonce := 5, zero := true, ownerModulus := 0,
    signature := signatures.getD n 0 }
theorem tokens_pass : tokenStatus {} (some (5, 0)) 1 (token 1 0 0) = 0 ∧ tokenStatus {} (some (5, 0)) 2 (token 2 0 1) = 0
    ∧ tokenStatus {} (some (5, 0)) 3 (token 3 0 2) = 0 ∧ tokenStatus {} (some (5, 0)) 4 (token 4 0 3) = 0
    ∧ tokenStatus { revoked := [1, 2, 3] } (some (5, 0)) 4 (token 4 0 3) = 0 ∧ tokenStatus { revoked := [1] } (some (5, 0)) 4 (token 4 1 4) = 0 := by decide +kernel
theorem wit_tokens : (∀ tag ∈ [2, 3, 6, 7], ∀ st ∈ [SealState.sealed, .unsealed], ∀ u ∈ [({} : Fuses), { revoked := [1] }, { revoked := [1, 2, 3] }], let m := mail 0 1088 tag 5
      mailed { sSec m st with fuses := u } tag m = true ∧ (takenS (sSec m st)).assayerHost = true ∧ (devSec m st).sec.run = none ∧ (devSec m st).start.state = .ready
      ∧ (devSec m st).sec.nonce = some (5, 0) ∧ (devSec m st).isSealed = (st == .sealed) ∧ (devSec m st).sec.sealSt = st)
    ∧ tokenStatus {} (some (5, 0)) 2 (token 1 0 0) ≠ 0
    ∧ (List.range 4).filter (fun k => !([1, 2, 3] : List Nat).contains k && k != (token 4 0 3).arg) = []
    ∧ (List.range 4).filter (fun k => !([1] : List Nat).contains k && k != (token 4 1 4).arg) ≠ [] := by decide +kernel

def run1 (step : Nat) : UnsealRun := { step := step, seq := 5 }
theorem wit_unseal : ∀ k ∈ [1, 2, 3, 4, 5], let d : Dev := { dev0 with conf := slots7, sec := { sealSt := .pending, run := some (run1 k) } }
    d.sec.run = some (run1 k) ∧ (run1 k).step = k ∧ (run1 k).fuses = none ∧ areaHas d.conf.ledger 0x4000000 = true ∧ areaHas d.conf.ledger (0x4000000 + 7 * 0x402000) = false := by
  decide +kernel

def sTap (st : SealState) (resetN : Bool) : State := { dev := { dev0 with sec := { sealSt := st }, power := { dev0.power with pins := { resetN := resetN } } } }
def scan (write : Bool) (a : Nat) : BitVec 128 := BitVec.ofNat 128 (a + (if write then 1 else 0) <<< 52 + 9 <<< 64)
theorem wit_testPort : (∀ x ∈ [(SealState.unsealed, true), (.sealed, false), (.sealed, true)], (sTap x.1 x.2).dev.mgmtOn = true ∧ (sTap x.1 x.2).dev.sec.sealSt = x.1
      ∧ (sTap x.1 x.2).dev.power.pins.resetN = x.2)
    ∧ (∀ a ∈ [0x1000, 4 * 0x6000000000 - 8], ∀ w ∈ [true, false], (scan w a).getLsbD 52 = w ∧ (scan w a).getLsbD 53 = false
        ∧ (sTap .unsealed true).dev.memAnswers ((scan w a).toNat % 2 ^ 52) = true) := by decide +kernel

/-! ## Management -/

def sMgmt (x : MgmtSt) (lock : Bool) : State :=
  { dev := { dev0 with start := { state := .ready, keyReady := true }, sec := { keyLock := lock }, mgmt := x } }
def asked0 : MgmtSt := { addr := some 8 }
/-- Whether the chain has a byte is open: the clause on its certificates has the witness of an offset at its end and of another slot. -/
theorem wit_management : ((sMgmt {} false).dev.i3cUp = true ∧ (sMgmt {} false).dev.mgmt.addr = none)
    ∧ (∀ b ∈ [true, false], (sMgmt asked0 b).dev.i3cUp = true ∧ (sMgmt asked0 b).dev.mgmt.addr.isSome ∧ (sMgmt asked0 b).dev.keyAvail = !b)
    ∧ ((sMgmt asked0 false).dev.mgmt.out = [] ∧ (sMgmt { asked0 with out := [.done .success] } false).dev.mgmt.out = .done .success :: [])
    ∧ (∃ kind id, (sMgmt asked0 false).dev.pdrs[0]? = some (kind, id)) ∧ (sMgmt asked0 false).dev.pdrs[(sMgmt asked0 false).dev.pdrs.length - 1]? = some (2, 1)
    ∧ (1 ≤ 1 ∧ 0xFE < 0xFF ∧ 0xFF ≤ 0xFF) ∧ State.reset.dev.i3cUp = false ∧ (1 ≠ 0 ∨ Config.certChain.length ≤ 0)
    ∧ Config.certChain.length ≤ Config.certChain.length := by
  refine ⟨by decide +kernel, by decide +kernel, by decide +kernel, ?_, by decide +kernel, by decide, by decide +kernel, Or.inl (by decide), Nat.le_refl _⟩
  obtain ⟨v, h, -⟩ := some_of (x := (sMgmt asked0 false).dev.pdrs[0]?) (fun _ => true) (by decide +kernel)
  exact ⟨v.1, v.2, h⟩

def sUp (x : UpdateState) : State := sMgmt { asked0 with update := x } false
theorem wit_update : (∀ x ∈ [UpdateState.idle, .learn, .ready, .download 1025 0, .download 1024 0, .download 1 0], (sUp x).dev.i3cUp = true ∧ (sUp x).dev.mgmt.addr.isSome
      ∧ (sUp x).dev.mgmt.update = x)
    ∧ (0 < 1025 ∧ 1024 < 1025 - 0 ∧ 1024 - 0 ≤ 1024 ∧ 1 ≤ 1 ∧ 0x07FF0000 ≤ 0x07FF0000 ∧ 0x07FF0000 < 0x07FF0001)
    ∧ imageReason {} {} ≠ 0 ∧ (s0.dev.start.state ≠ .oasis)
    ∧ (let s : State := { dev := { start := { state := .oasis }, power := { pins := { resetN := true } }, mgmt := asked0 } }
       s.dev.oasisStart = true ∧ s.dev.i3cUp = true ∧ s.dev.mgmt.addr.isSome)
    ∧ (let s : State := { dev := { start := { state := .oasis }, power := { pins := { resetN := true } }, mgmt := asked0, flash := { record := [entry0 .oasis 3] } } }
       s.dev.oasisStart = false ∧ s.dev.i3cUp = true ∧ s.dev.mgmt.addr.isSome) := by decide +kernel
theorem wit_updateImage : imageReason {} image0 = 0 := by
  have h := image0_passes
  unfold phase2Reason at h
  simp only at h
  split at h
  · exact absurd h ‹_›
  · exact Classical.byContradiction ‹_›

/-! ## The whole machine -/

/-- A command at the front of the queue, and the fuses that it blows: a commit of version 3, which the fuses allow. -/
def sCommit : State := { sSec (mail 0 3 4 5) .sealed with pending := [.rollbackCommit true], fuses := fuses2 }
theorem wit_stepFront : sCommit.pending = .rollbackCommit true :: [] ∧ FusesLegal sCommit.fuses ∧ FusesKept fuses2 sCommit.fuses
    ∧ (∃ t, step sCommit = .next t ∧ t.fuses.counter = 3) := by
  refine ⟨rfl, by unfold FusesLegal; decide +kernel, ⟨rfl, Nat.le_refl _, fun _ h => h, fun _ h => h, fun h => h, fun h => h⟩, _, rfl, by decide +kernel⟩

/-- Operand `imm` of a word without a long form is 0; the opcode 0 is none of R146's. -/
theorem wit_wordsReadBack : ({ lf := false } : FmtA).imm = 0 ∧ ({ lf := true, imm := 5 } : FmtA).lf = true ∧ (0 : DWord).toNat % 1024 ∉ opcodesA.map (fun x => x.1)
    ∧ (0 : DWord).toNat % 1024 ∉ opcodesI.map (fun x => x.1) ∧ (0 : DWord).toNat % 1024 ∉ opcodesM.map (fun x => x.1)
    ∧ (0 : DWord).toNat % 1024 ∉ opcodesB.map (fun x => x.1) := by decide


/-! ## Worked examples of the spec -/

/-- 05, *E4M3 with and without saturation*: 450, 464, 500 and minus infinity. -/
theorem test_e4m3 : convert (.flt fp32) (.flt e4m3) .rn false 0x43E10000 = ⟨0x7E, flagInexact⟩ ∧ convert (.flt fp32) (.flt e4m3) .rn false 0x43E80000 = ⟨0x7E, flagInexact⟩
    ∧ convert (.flt fp32) (.flt e4m3) .rn false 0x43FA0000 = ⟨0x7F, flagOverflow ||| flagInexact⟩
    ∧ convert (.flt fp32) (.flt e4m3) .rn true 0x43FA0000 = ⟨0x7E, flagOverflow ||| flagInexact⟩
    ∧ convert (.flt fp32) (.flt e4m3) .rz false 0x43FA0000 = ⟨0x7E, flagOverflow ||| flagInexact⟩
    ∧ convert (.flt fp32) (.flt e4m3) .rn true 0xFF800000 = ⟨0xFE, flagOverflow⟩ := by decide +kernel

/-- 05, *one IX4 block*: 5.0, 1.3, -0.4 and zeros under the scale 0x76; underflow by R194 (log entry 12). -/
theorem test_ix4 : (packFrom (.scaled e2m1 true) (fun _ => .rn) false 0x76 [0x40A00000, 0x3FA66666, 0xBECCCCCD, 0] 0) = ⟨0x0937, flagUnderflow ||| flagInexact⟩ := by decide +kernel

/-- R186's check, and 05's worked example of RS: 1.3 to BF16 with the two values of r. -/
theorem test_stochastic : rsBits 0 0 = 0 ∧ convert (.flt fp32) (.flt bf16) (.rs 0xA0000000) false 0x3FA66666 = ⟨0x3FA7, flagInexact⟩
    ∧ convert (.flt fp32) (.flt bf16) (.rs 0x12345678) false 0x3FA66666 = ⟨0x3FA6, flagInexact⟩
    ∧ convert (.flt fp32) (.flt bf16) (.rs 0x9999FFFF) false 0x3FA66666 = ⟨0x3FA6, flagInexact⟩
    ∧ convert (.flt fp32) (.flt bf16) (.rs 0x999A0000) false 0x3FA66666 = ⟨0x3FA7, flagInexact⟩ := by decide +kernel

/-- 05, *order cannot change a sum*: two orders of the contributions end in 2.0; and 09's gradient element, which ends in 2^-23. -/
theorem test_shadow : (∀ l ∈ [[0x3F800000, 0x4C000000, 0x3F800000, 0xCC000000], [0x4C000000, 0xCC000000, 0x3F800000, 0x3F800000]],
      RedClass.addF.closed (l.foldl (fun f v => RedClass.addF.add f v) 0) = 0x40000000)
    ∧ (([0x3F800000, 0x4C000000, 0x3F800000].foldl (fun f v => RedClass.addF.add f v) 0) = BitVec.ofNat 320 (2 ^ 174 + 2 ^ 150))
    ∧ RedClass.addF.closed ([0x3F800000, 0x33800000, 0x33800000, 0xBF800000].foldl (fun f v => RedClass.addF.add f v) 0) = 0x34000000 := by decide +kernel

/-- 05, *one rounding in a matrix output*, and 06, *a scaled product in one rounding*: 18 - 18 + 2^-32. -/
theorem test_accumulate : fp32.accumulate .rn [fp32.decode 0x3F800000, (bf16.decode 0x3980).mul (bf16.decode 0x3980), (bf16.decode 0x3980).mul (bf16.decode 0x3980)]
      = ⟨0x3F800001, 0⟩
    ∧ fp32.accumulate .rn [fp32.decode 0x41900000,
        ((e2m1.decode 0x7).mul (e2m1.decode 0xB)).mul ((e8m0.decode 0x80).mul (e8m0.decode 0x7F)),
        ((e2m1.decode 0x1).mul (e2m1.decode 0x6)).mul ((e8m0.decode 0x61).mul (e8m0.decode 0x7C))] = ⟨0x2F800000, 0⟩ := by decide +kernel

/-- R254's table for 0x0123_6580 in layout 0123: slice 38, set 0x0C3, channel 198, ca 0x6180. -/
theorem test_home : let h := homeOf 0 8 0x01236580
    h.slice = 38 ∧ h.set = 0x0C3 ∧ h.channel = 198 ∧ h.ca = 0x6180 ∧ h.stack = 2 := by decide +kernel

/-- 14, *one walk*: instance 70 in layout 01 and 23; and 13's example of HOST_VF_BLOCKS_LO. -/
def confWalk : Conf :=
  { layout := 1, parts := [some { first := 0, lodes := 2 }, none, some { first := 2, lodes := 2 }, none],
    slots := [{ inst := 70, accounts := 1, sizeGib := 64, base := 0x5000000000 }], owners := [(129, 70), (130, 70), (140, 70)] }
def memWalk : List Host.Cell :=
  Mem.writeNat (Mem.writeNat (Mem.writeNat (Mem.writeNat [] 0x40000000 8 0x40001001) 0x400017F0 8 0x40002001) 0x40002000 8 0x40003001) 0x40003000 8 0x5000200007
def devWalk : Dev := { dev0 with conf := confWalk, insts := [(70, { state := .running, s2root := 0x40000000 })], mem := memWalk }
theorem test_walk : (devWalk.translate 0 70 0x00007F0000100040 true).2 = .dev 0x5000300040 ∧ (devWalk.translate 0 70 0x00007F0000300040 true).2 = .fail
    ∧ devWalk.vfBlocks 70 128 = 0x1006 ∧ (devWalk.blocksOf 70)[0]? = some (8260 / 64) := by decide +kernel

/-- 19, *one tick*: the division of 343,007 µJ among the domains, and of compute domain 2's share among its accounts. -/
theorem test_division : (divide 343007 (((List.range 8).map (fun k => (k, 23200000))) ++ ((List.range 8).map (fun k => (8 + k, 14100000))) ++ [(16, 2600000), (17, 900000)])).map (fun x => x.2)
      = List.replicate 8 26359 ++ List.replicate 7 16020 ++ [16019, 2954, 1022]
    ∧ divide 26359 [(0x00460003, 1200000), (0x00460004, 450000), (0x01000001, 50000), (0x02100000, 100000)]
      = [(0x00460003, 17573), (0x00460004, 6590), (0x01000001, 732), (0x02100000, 1464)] := by decide +kernel

/-- 20's worked example: entry 199,999 of the event log stands at base + 0x1_A7E0, over an unread entry. -/
def devLog : Dev :=
  { dev0 with conf := { conf0 with eventLog := { base := 0x17008000000, size := 0x200000 } }, faults := { logProduced := 199999, logConsumed := 120000 } }
theorem test_eventLog : let d := devLog.logEntry { time := 1, kind := 1 }
    d.faults.logProduced = 200000 ∧ d.faults.overwrites = 1 ∧ d.mem.head?.map (fun c => c.1) = some (0x17008000000 + 0x1A7E0) := by decide +kernel

/-- FIPS 180-4's digest of "abc" begins 0xDDAF 0x35A1. -/
theorem test_sha512 : (sha512Bytes [0x61, 0x62, 0x63]).take 4 = [0xDD, 0xAF, 0x35, 0xA1] := by decide +kernel
end Sys2Proof.Tests
end

section
/-! SUPPORT. The issue of an instruction that changes its group alone (03 R87, 04 R129, R135), and the rules of per-lane
writes of registers and predicates. -/

namespace Sys2Proof

open Sys2Proof.Machine

/-! ## Issue -/

/-- A group issues in a running partition alone. -/
theorem partRuns_of_ctx {d : Dev} {g : GroupRef} {c : Ctx} (h : d.ctx g = some c) : d.partRuns c.part = true := by
  unfold Dev.ctx at h
  split at h
  · cases h
  split at h
  · cases h
  split at h
  next p r part _ _ _ =>
    obtain ⟨hok, he⟩ := Option.ite_none_right_eq_some.1 h
    cases he
    simp only [Bool.and_eq_true] at hok
    obtain ⟨⟨⟨⟨⟨hruns, _⟩, _⟩, _⟩, _⟩, _⟩ := hok
    exact hruns
  · cases h

theorem meter_cores (d : Dev) (dom : Nat) (acct : Option Nat) (w : Nat) : (d.meter dom acct w).cores = d.cores :=
  (congrArg Dev.cores (Dev.meter_frame d dom acct w) :)

theorem meter_groups (d : Dev) (dom : Nat) (acct : Option Nat) (w : Nat) : (d.meter dom acct w).groups = d.groups :=
  (congrArg Dev.groups (Dev.meter_frame d dom acct w) :)

/-- Metering looks at the counts alone. -/
theorem meter_counts_congr {d e : Dev} (h : d.counts = e.counts) (dom : Nat) (acct : Option Nat) (w : Nat) :
    (d.meter dom acct w).counts = (e.meter dom acct w).counts := by
  cases acct with
  | none => exact h
  | some a => simp only [Dev.meter, h]

@[simp] theorem core_setGroup (d : Dev) (k j : Nat) (x : Group) : (d.setGroup k x).core j = d.core j := rfl

@[simp] theorem group_slotsUsed (d : Dev) (c : Ctx) (n k : Nat) : (d.slotsUsed c n).group k = d.group k := by
  simp only [Dev.slotsUsed, Dev.group, meter_groups, Dev.setCore_groups]

@[simp] theorem core_slotsUsed (d : Dev) (c : Ctx) (n k : Nat) : (d.slotsUsed c n).core k =
    if k = c.coreKey then { d.core k with issued := ((d.core k).issued + n) % 2 ^ 32 } else d.core k := by
  have h : (d.slotsUsed c n).core k
      = (d.setCore c.coreKey { d.core c.coreKey with issued := ((d.core c.coreKey).issued + n) % 2 ^ 32 }).core k := by
    simp only [Dev.slotsUsed, Dev.core, meter_cores]
  rw [h, Dev.core_setCore]
  split
  next e => rw [e]
  next => rfl

theorem slotsUsed_frame (d : Dev) (c : Ctx) (n : Nat) : { d.slotsUsed c n with cores := d.cores, counts := d.counts } = d :=
  congrArg (fun x : Dev => { x with cores := d.cores }) (Dev.meter_frame (d.setCore c.coreKey _) _ _ _)

/-- An instruction that goes: the group is replaced, its slots are counted, and its running path moves on. -/
theorem issueGroup_of_legal {s : State} {g : GroupRef} {c : Ctx} {uses : Ctx → Option (List Use)} (slots len : Nat)
    (eff : Ctx → Group) (hc : CanIssue s g c) (hl : Legal s c (uses c)) :
    s.dev.issueGroup g uses true slots len eff
      = ((s.dev.setGroup c.key (eff c)).slotsUsed c slots).setGroup c.key ((eff c).goto (c.path.pc + len)).settled := by
  obtain ⟨hctx, h8, h56⟩ := hc
  obtain ⟨us, hus, hil⟩ := hl
  have hpc : ¬ (c.path.pc % 8 ≠ 0 || c.path.pc ≥ 2 ^ 56) = true := by simpa [h8] using h56
  have hruns : (s.dev.setGroup c.key (eff c)).partRuns c.part = true := (partRuns_of_ctx hctx :)
  simp only [Dev.issueGroup, Dev.issue, Dev.issueGen, Dev.advance, hctx, if_neg hpc, hus, hil, hruns]
  simp

/-- A command that such an issue performs completes: its frame (OnlyGroup), and where its path goes on. -/
theorem completes_of_issueGroup {s : State} {g : GroupRef} {c : Ctx} {cmd : Instr} {uses : Ctx → Option (List Use)}
    {slots len : Nat} {eff : Ctx → Group} (hx : exec cmd s = done s (s.dev.issueGroup g uses true slots len eff))
    (hc : CanIssue s g c) (hl : Legal s c (uses c)) :
    ∃ t, exec cmd s = .next t ∧ OnlyGroup s c slots t ∧ Moved c t (eff c) (c.path.pc + len) := by
  rw [issueGroup_of_legal slots len eff hc hl] at hx
  refine ⟨_, hx, ?_, by simp [Moved, State.withDev]⟩
  constructor
  case queue => rfl
  case fuses => rfl
  case others => intro k hk; simp [State.withDev, hk]
  case cores => intro k; simp only [State.withDev, core_setGroup, core_slotsUsed]; split <;> rfl
  case issued => intro k; simp only [State.withDev, core_setGroup, core_slotsUsed]; split <;> rfl
  case counts => exact meter_counts_congr (d := (s.dev.setGroup c.key (eff c)).setCore c.coreKey _) (e := s.dev) rfl _ _ _
  case dev =>
    exact congrArg (fun x : Dev => { x with groups := s.dev.groups }) (slotsUsed_frame (s.dev.setGroup c.key (eff c)) c slots)

/-! ## Legal words -/

/-- What the legality of a format A word asks of it (04 R136-R138, R143). -/
theorem of_aUses {nv : Nat} {w : FmtA} {sp : ASpec} {us : List Use} (h : aUses nv w sp = some us) :
    sp.modOk = true ∧ (w.lf = true → sp.long = true) ∧ (w.uf = true → sp.uni = true)
      ∧ (∃ x, fieldUses nv sp.d w.d w.uf false = some x) ∧ (∃ y, fieldUses nv sp.a w.a w.uf w.ka = some y) := by
  unfold aUses at h
  obtain ⟨hok, h⟩ := Option.ite_none_right_eq_some.1 h
  split at h
  next x y _ _ hd ha _ _ =>
    simp only [Bool.and_eq_true, Bool.or_eq_true, Bool.not_eq_true'] at hok
    obtain ⟨⟨⟨⟨⟨_, hmod⟩, _⟩, hlf⟩, huf⟩, _⟩ := hok
    refine ⟨hmod, fun hl => ?_, fun hu => ?_, ⟨x, hd⟩, ⟨y, ha⟩⟩
    · simp only [hl, Bool.true_eq_false, false_or] at hlf; exact hlf.1.1.1
    · simp only [hu, Bool.true_eq_false, false_or] at huf; exact huf.1.1.1
  · cases h

/-- A predicate field names one of p0-p7. -/
theorem lt_of_fieldUses_pred {nv : Nat} {v : BitVec 8} {uf k : Bool} {x : List Use} (h : fieldUses nv .pred v uf k = some x) :
    v.toNat < 8 := by
  unfold fieldUses at h
  dsimp only at h
  split at h
  next hok => simp only [Bool.and_eq_true, decide_eq_true_eq] at hok; exact hok.1
  · cases h

/-! ## Lanes -/

@[simp] theorem mem_lanesOf (m : Lanes) (l : Nat) : l ∈ lanesOf m ↔ l < 32 ∧ m.getLsbD l = true := by
  simp [lanesOf]

theorem getLsbD_laneBit {l m : Nat} (hm : m < 32) : (laneBit l).getLsbD m = decide (m = l) := by
  rw [Bool.eq_iff_iff]
  simp only [laneBit, BitVec.getLsbD_shiftLeft, BitVec.getLsbD_one, Bool.and_eq_true, Bool.not_eq_true', decide_eq_true_eq,
    decide_eq_false_iff_not]
  omega

/-- Steps that agree on the elements of a list agree over the list. -/
theorem foldl_congr_of_mem {α β : Type} {f g : β → α → β} {xs : List α} (h : ∀ b, ∀ x ∈ xs, f b x = g b x) (b : β) :
    xs.foldl f b = xs.foldl g b := by
  induction xs generalizing b with
  | nil => rfl
  | cons x xs ih =>
    rw [List.foldl_cons, List.foldl_cons, h b x (List.mem_cons_self ..)]
    exact ih (fun b y hy => h b y (List.mem_cons_of_mem x hy)) _

/-- Steps that leave a value leave it over every list. -/
theorem foldl_eq_self {α β : Type} {f : β → α → β} {b : β} (h : ∀ x, f b x = b) (xs : List α) : xs.foldl f b = b := by
  induction xs with
  | nil => rfl
  | cons x xs ih => rw [List.foldl_cons, h, ih]

/-! ## Registers written lane by lane -/

/-- Each lane of a list writes its own `n` registers from `d`. -/
def writeLanes (d n : Nat) (val : Nat → Nat) (ls : List Nat) (g : Group) : Group :=
  ls.foldl (fun h l => h.writeVs d l n (val l)) g

section
variable {d n : Nat} {val : Nat → Nat} {ls : List Nat}

/-- Only registers of v change. -/
theorem writeVs_frame (g : Group) (d l n x : Nat) : { g.writeVs d l n x with v := g.v } = g := by
  induction n generalizing g d x with
  | zero => rfl
  | succ n ih => exact congrArg (fun k : Group => { k with v := g.v }) (ih (g.writeV d l (BitVec.ofNat 32 x)) (d + 1) (x / 2 ^ 32))

theorem writeLanes_frame (g : Group) : { writeLanes d n val ls g with v := g.v } = g := by
  induction ls generalizing g with
  | nil => rfl
  | cons l ls ih =>
    exact (congrArg (fun k : Group => { k with v := g.v }) (ih (g.writeVs d l n (val l)))).trans (writeVs_frame g d l n (val l))

theorem flags_writeLanes (g : Group) : (writeLanes d n val ls g).flags = g.flags :=
  (congrArg Group.flags (writeLanes_frame g) :)

theorem readV_writeLanes_other (hls : ∀ l ∈ ls, l < 32) (g : Group) {r m : Nat} (hm : m < 32) (h : m ∉ ls ∨ r < d ∨ d + n ≤ r) :
    (writeLanes d n val ls g).readV r m = g.readV r m := by
  induction ls generalizing g with
  | nil => rfl
  | cons l ls ih =>
    obtain ⟨hl, hls⟩ := List.forall_mem_cons.1 hls
    rw [List.mem_cons, not_or] at h
    refine (ih hls _ (h.imp_left And.right)).trans ?_
    exact Group.readV_writeVs_other g d l n _ r m hl hm (h.imp_left And.left)

theorem readVs_congr {g h : Group} {l : Nat} (hv : ∀ r, g.readV r l = h.readV r l) (r n : Nat) :
    g.readVs r l n = h.readVs r l n := by
  induction n generalizing r with
  | zero => rfl
  | succ n ih => rw [Group.readVs, Group.readVs, hv, ih]

/-- A lane that writes reads its value back: lanes do not meet, and a lane listed twice writes the same again. -/
theorem readVs_writeLanes (hls : ∀ l ∈ ls, l < 32) (g : Group) {m : Nat} (hm : m ∈ ls) :
    (writeLanes d n val ls g).readVs d m n = val m % 2 ^ (32 * n) := by
  induction ls generalizing g with
  | nil => cases hm
  | cons l ls ih =>
    obtain ⟨hl, hlt⟩ := List.forall_mem_cons.1 hls
    by_cases hrest : m ∈ ls
    · exact ih hlt _ hrest
    · obtain rfl : m = l := (List.mem_cons.1 hm).resolve_right hrest
      calc (writeLanes d n val ls (g.writeVs d m n (val m))).readVs d m n
          = (g.writeVs d m n (val m)).readVs d m n :=
            readVs_congr (fun _ => readV_writeLanes_other hlt _ hl (Or.inl hrest)) d n
        _ = val m % 2 ^ (32 * n) := Group.readVs_writeVs g d m n (val m) hl

/-- The per-thread form (04 R137): the lanes that take part hold their results, and nothing else changes. -/
theorem written_writeLanes {w : FmtA} (hu : w.uf = false) (hls : ∀ l ∈ ls, l < 32) (g : Group) :
    Written w ls g (writeLanes w.d.toNat n val ls g) n val := by
  have hframe := writeLanes_frame (d := w.d.toNat) (n := n) (val := val) (ls := ls) g
  constructor
  case lanes => exact fun _ l hl => readVs_writeLanes hls g hl
  case uniform => intro h; rw [hu] at h; cases h
  case otherV => exact fun r l hl h => readV_writeLanes_other hls g hl (h.resolve_left (by simp [hu]))
  case otherU => exact fun r _ => (congrArg (fun k : Group => k.readU r) hframe :)
  case rest => exact (congrArg (fun k : Group => { k with u := g.u, flags := g.flags }) hframe :)

end

/-- Flags raised after the writes leave the registers as written. -/
theorem Written.raise {w : FmtA} {ls : List Nat} {g h : Group} {n : Nat} {val : Nat → Nat} (hw : Written w ls g h n val) (f : Word) :
    Written w ls g (h.raise f) n val where
  lanes hu l hl := (readVs_congr (g := h.raise f) (h := h) (fun _ => rfl) _ n).trans (hw.lanes hu l hl)
  uniform := hw.uniform
  otherV := hw.otherV
  otherU := hw.otherU
  rest := hw.rest

/-! ## Predicates written lane by lane -/

theorem getLsbD_readP_writeP (g : Group) (k : Nat) (who val : Lanes) (j : Nat) {l : Nat} (hl : l < 32) :
    ((g.writeP k who val).readP j).getLsbD l
      = if j = k ∧ who.getLsbD l = true then val.getLsbD l else (g.readP j).getLsbD l := by
  rw [Group.readP_writeP]
  by_cases hj : j = k
  · subst hj
    cases hw : who.getLsbD l <;> simp [hl, hw, -BitVec.getLsbD_eq_getElem]
  · simp [hj]

/-- One predicate bit written in one lane. -/
theorem getLsbD_readP_writeP_laneBit (g : Group) (k l : Nat) (v : Bool) (j : Nat) {m : Nat} (hm : m < 32) :
    ((g.writeP k (laneBit l) (if v then laneBit l else 0)).readP j).getLsbD m
      = if j = k ∧ m = l then v else (g.readP j).getLsbD m := by
  rw [getLsbD_readP_writeP _ _ _ _ _ hm, getLsbD_laneBit hm]
  simp only [decide_eq_true_eq]
  split
  next h => obtain ⟨-, rfl⟩ := h; cases v <;> simp [getLsbD_laneBit hm]
  next => rfl

/-- Only predicates and flags differ. -/
def SameButPreds (g h : Group) : Prop := { h with p := g.p, flags := g.flags } = g

theorem SameButPreds.trans {g h k : Group} (hgh : SameButPreds g h) (hhk : SameButPreds h k) : SameButPreds g k :=
  (congrArg (fun x : Group => { x with p := g.p, flags := g.flags }) hhk :).trans hgh

theorem sameButPreds_foldl {α : Type} {f : Group → α → Group} (hf : ∀ h x, SameButPreds h (f h x)) (xs : List α) (g : Group) :
    SameButPreds g (xs.foldl f g) := by
  induction xs generalizing g with
  | nil => rfl
  | cons x xs ih => exact (hf g x).trans (ih _)

/-- A step for one lane settles the given predicate bits of that lane, and no other bit. -/
def SettlesOwnLane (f : Group → Nat → Group) (bit : Nat → Nat → Option Bool) : Prop :=
  ∀ h l n m, m < 32 → ((f h l).readP n).getLsbD m
    = if m = l then (bit n l).getD ((h.readP n).getLsbD m) else (h.readP n).getLsbD m

theorem getLsbD_readP_foldl {f : Group → Nat → Group} {bit : Nat → Nat → Option Bool} (hf : SettlesOwnLane f bit) (ls : List Nat)
    (g : Group) (n : Nat) {m : Nat} (hm : m < 32) :
    ((ls.foldl f g).readP n).getLsbD m
      = if m ∈ ls then (bit n m).getD ((g.readP n).getLsbD m) else (g.readP n).getLsbD m := by
  induction ls generalizing g with
  | nil => rfl
  | cons l ls ih =>
    rw [List.foldl_cons, ih, hf g l n m hm]
    by_cases hl : m = l
    · subst hl
      cases bit n m <;> simp
    · simp [hl]

theorem foldl_keeps_flags {α : Type} {f : Group → α → Group} (hf : ∀ h x, (f h x).flags = h.flags) (xs : List α) (g : Group) :
    (xs.foldl f g).flags = g.flags := by
  induction xs generalizing g with
  | nil => rfl
  | cons x xs ih => rw [List.foldl_cons, ih, hf]

theorem flags_foldl {f : Group → Nat → Group} {fl : Nat → Word} (hf : ∀ h l, (f h l).flags = h.flags ||| fl l) (ls : List Nat)
    (g : Group) :
    (ls.foldl f g).flags = ls.foldl (fun x l => x ||| fl l) g.flags := by
  induction ls generalizing g with
  | nil => rfl
  | cons l ls ih => rw [List.foldl_cons, ih, hf, List.foldl_cons]

/-! ## SHFL, VOTE.BALLOT and REDUX (04 R165-R167) -/

theorem exec_shfl (g : GroupRef) (w : FmtA) (s : State) : exec (.shfl g w) s = done s (doShfl g w s.dev) := rfl

/-- VOTE has no long form, so its 8 bytes are what its legal words occupy. -/
theorem exec_vote_ballot {w : FmtA} (hlf : w.lf = false) (h : w.mod = 3) (g : GroupRef) (s : State) :
    exec (.vote g w) s = done s (s.dev.issueGroup g (fun c => aUses c.grp.nv w { d := .reg 1, a := .pred, modOk := w.mod == 3 })
      true 1 (insLen w.lf) (voteEffect w)) := by
  have hx : exec (.vote g w) s = done s (doVote g w s.dev) := rfl
  simp [hx, doVote, h, hlf, insLen]

/-- REDUX has no long form. -/
theorem exec_redux {w : FmtA} (hlf : w.lf = false) (g : GroupRef) (s : State) :
    exec (.redux g w) s = done s (s.dev.issueGroup g
      (fun c => aUses c.grp.nv w { d := .reg 1, a := .reg 1, modOk := w.mod.toNat < 32 && w.mod.toNat % 8 < 6 && w.mod.toNat / 8 % 4 < 3
                                && (w.mod.toNat % 8 < 3 || w.mod.toNat / 8 % 4 != 2) })
      true (if w.mod.toNat / 8 % 4 = 2 then 4 else 2) (insLen w.lf) (reduxEffect w)) := by
  rw [hlf]; rfl

/-- The lane SHFL names by its mode, before the check that it is one (04 R165). -/
def shflIndex (mode n k : Nat) : Int :=
  if mode = 0 then (k : Int) else if mode = 1 then (n : Int) - k else if mode = 2 then (n : Int) + k else ((n ^^^ k : Nat) : Int)

theorem shflLane_eq {mode n k : Nat} (hm : mode < 4) (hn : n < 32) (hk : k < 32) :
    shflLane mode n k = if 0 ≤ shflIndex mode n k ∧ shflIndex mode n k ≤ 31 then some (shflIndex mode n k).toNat else none := by
  have hxor : n ^^^ k < 2 ^ 5 := Nat.xor_lt_two_pow hn hk
  have hmode : mode = 0 ∨ mode = 1 ∨ mode = 2 ∨ mode = 3 := by omega
  obtain rfl | rfl | rfl | rfl := hmode
  · change some k = if 0 ≤ (k : Int) ∧ (k : Int) ≤ 31 then some (k : Int).toNat else none
    rw [if_pos (by omega), Int.toNat_natCast]
  · change (if k ≤ n then some (n - k) else none)
      = if 0 ≤ (n : Int) - k ∧ (n : Int) - k ≤ 31 then some ((n : Int) - k).toNat else none
    by_cases h : k ≤ n
    · rw [if_pos h, if_pos (by omega), Int.toNat_sub]
    · rw [if_neg h, if_neg (by omega)]
  · change (if n + k < 32 then some (n + k) else none)
      = if 0 ≤ (n : Int) + k ∧ (n : Int) + k ≤ 31 then some ((n : Int) + k).toNat else none
    by_cases h : n + k < 32
    · rw [if_pos h, if_pos (by omega)]; rfl
    · rw [if_neg h, if_neg (by omega)]
  · change some (n ^^^ k) = if 0 ≤ ((n ^^^ k : Nat) : Int) ∧ ((n ^^^ k : Nat) : Int) ≤ 31 then some ((n ^^^ k : Nat) : Int).toNat else none
    rw [if_pos (by omega), Int.toNat_natCast]

theorem shflSource_eq (c : Ctx) (w : FmtA) (n : Nat) :
    let i := shflIndex (w.mod.toNat % 4) n (srcB c.grp w n 1 % 32)
    shflSource c w n = if 0 ≤ i ∧ i ≤ 31 ∧ (c.lanes w.guard).getLsbD i.toNat = true then i.toNat else n := rfl

theorem shflEffect_eq (w : FmtA) (c : Ctx) :
    let n := if w.mod.getLsbD 2 then 2 else 1
    shflEffect w c = writeLanes w.d.toNat n (fun l => srcA c.grp w (shflSource c w l) n) (lanesOf (c.lanes w.guard)) c.grp := by
  refine foldl_congr_of_mem (fun h l hl => ?_) _
  obtain ⟨hl, -⟩ := (mem_lanesOf _ l).1 hl
  dsimp only
  rw [shflLane_eq (Nat.mod_lt _ (by decide)) hl (Nat.mod_lt _ (by decide)), shflSource_eq]
  generalize shflIndex (w.mod.toNat % 4) l (srcB c.grp w l 1 % 32) = i
  by_cases hi : 0 ≤ i ∧ i ≤ 31
  · simp [hi]
  · simp [hi, ← and_assoc]

theorem voteEffect_ballot {w : FmtA} {c : Ctx} (hm : w.mod = 3) (ha : w.a.toNat < 8) :
    voteEffect w c = writeLanes w.d.toNat 1 (fun _ => (c.grp.readP w.a.toNat &&& c.lanes w.guard).toNat) (lanesOf (c.lanes w.guard)) c.grp := by
  simp [voteEffect, hm, Nat.mod_eq_of_lt ha, writeLanes, Group.writeVs]

theorem reduxEffect_eq {w : FmtA} {c : Ctx} (h : c.lanes w.guard ≠ 0) :
    reduxEffect w c = (writeLanes w.d.toNat 1 (fun _ => (reduxAll c w).val) (lanesOf (c.lanes w.guard)) c.grp).raise (reduxAll c w).flags :=
  if_neg h

theorem lanesOf_eq_nil {m : Lanes} : lanesOf m = [] ↔ m = 0 := by
  constructor
  · intro h
    refine BitVec.eq_of_getLsbD_eq (fun l hl => ?_)
    have hmem : l ∉ lanesOf m := h ▸ List.not_mem_nil
    simpa [hl] using hmem
  · rintro rfl; rfl

theorem foldl_or_const (x f : Word) {ls : List Nat} (h : ls ≠ []) : ls.foldl (fun f _ => f ||| x) f = f ||| x := by
  obtain ⟨l, ls, rfl⟩ := List.exists_cons_of_ne_nil h
  exact foldl_eq_self (fun _ => by rw [BitVec.or_assoc, BitVec.or_self]) ls

theorem foldl_or_zero (ls : List Nat) (f : Word) : ls.foldl (fun f _ => f ||| 0) f = f :=
  foldl_eq_self (fun _ => BitVec.or_zero) ls

theorem written_reduxEffect {w : FmtA} {c : Ctx} (hu : w.uf = false) :
    Written w (lanesOf (c.lanes w.guard)) c.grp (reduxEffect w c) 1 (fun _ => (reduxAll c w).val)
      ∧ (reduxEffect w c).flags = (lanesOf (c.lanes w.guard)).foldl (fun f _ => f ||| (reduxAll c w).flags) c.grp.flags := by
  by_cases h : c.lanes w.guard = 0
  · have he : reduxEffect w c = c.grp := if_pos h
    rw [he, lanesOf_eq_nil.2 h]
    exact ⟨written_writeLanes (ls := []) hu (by simp) c.grp, rfl⟩
  · rw [reduxEffect_eq h, foldl_or_const _ _ (mt lanesOf_eq_nil.1 h)]
    refine ⟨(written_writeLanes hu (fun l hl => ((mem_lanesOf _ l).1 hl).1) c.grp).raise _, ?_⟩
    rw [Group.flags_raise, flags_writeLanes]

/-! ## Compares and predicates (04 R149, R166) -/

theorem exec_isetp (g : GroupRef) (w : FmtA) (s : State) : exec (.isetp g w) s = done s (doIsetp g w s.dev) := rfl
theorem exec_fsetp (g : GroupRef) (w : FmtA) (s : State) : exec (.fsetp g w) s = done s (doFsetp g w s.dev) := rfl

theorem exec_vote_pred {w : FmtA} (hlf : w.lf = false) (h : w.mod.toNat < 3) (g : GroupRef) (s : State) :
    exec (.vote g w) s = done s (s.dev.issueGroup g (fun c => aUses c.grp.nv w { d := .pred, a := .pred, modOk := decide (w.mod.toNat < 3) })
      true 1 (insLen w.lf) (voteEffect w)) := by
  have hx : exec (.vote g w) s = done s (doVote g w s.dev) := rfl
  have h3 : ¬ w.mod = 3#11 := by rintro e; simp [e] at h
  have h4 : w.mod.toNat < 4 := by omega
  simp [hx, doVote, h3, h, h4, hlf, insLen]

theorem exec_plut (g : GroupRef) (w : FmtA) (s : State) : exec (.plut g w) s = done s (doPlut g w s.dev) := rfl

/-- The bits that settled predicates hold: the given ones in the lanes that take part, the old ones elsewhere. -/
def BitsSettled (lanes : Lanes) (bit : Nat → Nat → Option Bool) (g h : Group) : Prop :=
  ∀ n l, l < 32 → (h.readP n).getLsbD l =
    if lanes.getLsbD l then (bit n l).getD ((g.readP n).getLsbD l) else (g.readP n).getLsbD l

theorem bitsSettled_foldl {f : Group → Nat → Group} {bit : Nat → Nat → Option Bool} (hf : SettlesOwnLane f bit) (lanes : Lanes)
    (g : Group) : BitsSettled lanes bit g ((lanesOf lanes).foldl f g) := by
  intro n l hl
  rw [getLsbD_readP_foldl hf _ g n hl]
  simp [hl]

theorem bitsSettled_writeP {lanes val : Lanes} {g : Group} {k : Nat} {b : Nat → Bool}
    (hb : ∀ l, l < 32 → lanes.getLsbD l = true → val.getLsbD l = b l) :
    BitsSettled lanes (fun n l => if n = k then some (b l) else none) g (g.writeP k lanes val) := by
  intro n l hl
  rw [getLsbD_readP_writeP _ _ _ _ _ hl]
  cases hlane : lanes.getLsbD l with
  | false => simp
  | true => by_cases hn : n = k <;> simp [hn, hb l hl hlane]

theorem bitsSettled_cmpEffect (w : FmtA) (n : Nat) (f : Nat → Nat → Bool × Word) (c : Ctx) :
    BitsSettled (c.lanes w.guard) (fun k l => if k = w.d.toNat then some (cmpBit w n f c l) else none) c.grp (cmpEffect w n f c) := by
  refine bitsSettled_foldl (fun h l k m hm => ?_) _ _
  rw [Group.readP_raise, getLsbD_readP_writeP_laneBit _ _ _ _ _ hm]
  by_cases hk : k = w.d.toNat <;> by_cases hl : m = l <;> simp [hk, hl, cmpBit]

theorem flags_cmpEffect (w : FmtA) (n : Nat) (f : Nat → Nat → Bool × Word) (c : Ctx) :
    (cmpEffect w n f c).flags = (lanesOf (c.lanes w.guard)).foldl
      (fun x l => x ||| (f (srcA c.grp w l n) (srcB c.grp w l n)).2) c.grp.flags :=
  flags_foldl (fun _ _ => rfl) _ _

theorem sameButPreds_cmpEffect (w : FmtA) (n : Nat) (f : Nat → Nat → Bool × Word) (c : Ctx) :
    SameButPreds c.grp (cmpEffect w n f c) := by
  refine sameButPreds_foldl (fun h l => ?_) _ _
  rfl

/-- A number put together bit by bit: below 2^n, with the bits asked for. -/
theorem foldl_two_pow_bits (p : Nat → Bool) (n : Nat) :
    let x := (List.range n).foldl (fun acc k => if p k then acc + 2 ^ k else acc) 0
    x < 2 ^ n ∧ ∀ l, l < n → x.testBit l = p l := by
  induction n with
  | zero => simp
  | succ n ih =>
    simp only [List.range_succ, List.foldl_append, List.foldl_cons, List.foldl_nil] at ih ⊢
    generalize (List.range n).foldl (fun acc k => if p k then acc + 2 ^ k else acc) 0 = x at ih
    obtain ⟨hx, hbits⟩ := ih
    cases hp : p n with
    | false =>
      refine ⟨by simp only [Bool.false_eq_true, if_false]; omega, fun l hl => ?_⟩
      obtain hl | rfl := Nat.lt_succ_iff_lt_or_eq.1 hl
      · simpa using hbits l hl
      · simpa [hp] using Nat.testBit_lt_two_pow hx
    | true =>
      refine ⟨by simp only [if_true]; omega, fun l hl => ?_⟩
      rw [if_pos rfl, Nat.add_comm]
      obtain hl | rfl := Nat.lt_succ_iff_lt_or_eq.1 hl
      · rw [Nat.testBit_two_pow_add_gt hl, hbits l hl]
      · rw [Nat.testBit_two_pow_add_eq, Nat.testBit_lt_two_pow hx, hp]; rfl

theorem mul_indicator (k : Nat) (b : Bool) : k * (if b then 1 else 0) = if b then k else 0 := by
  cases b <;> simp

theorem testBit_lut (tt n a b c : Nat) {l : Nat} (hl : l < n) : (lut tt n a b c).testBit l
    = tt.testBit ((if a.testBit l then 1 else 0) + (if b.testBit l then 2 else 0) + (if c.testBit l then 4 else 0)) :=
  (foldl_two_pow_bits (fun k => tt.testBit ((if a.testBit k then 1 else 0) + (if b.testBit k then 2 else 0)
    + (if c.testBit k then 4 else 0))) n).2 l hl

/-- PMOV.V2P in one lane: the predicates of a list from the bits of `x`. -/
def writePreds (ks : List Nat) (x : Nat) (g : Group) (l : Nat) : Group :=
  ks.foldl (fun h k => h.writeP k (laneBit l) (if x.testBit k then laneBit l else 0)) g

theorem getLsbD_readP_writePreds (ks : List Nat) (x : Nat) (g : Group) (l n : Nat) {m : Nat} (hm : m < 32) :
    ((writePreds ks x g l).readP n).getLsbD m = if n ∈ ks ∧ m = l then x.testBit n else (g.readP n).getLsbD m := by
  induction ks generalizing g with
  | nil => simp [writePreds]
  | cons k ks ih =>
    refine (ih _).trans ?_
    rw [getLsbD_readP_writeP_laneBit _ _ _ _ _ hm]
    by_cases hk : n = k
    · by_cases hl : m = l <;> simp [hk, hl]
    · simp [hk]

theorem flags_writePreds (ks : List Nat) (x : Nat) (g : Group) (l : Nat) : (writePreds ks x g l).flags = g.flags := by
  refine foldl_keeps_flags (fun h k => ?_) _ g
  rfl

theorem sameButPreds_writePreds (ks : List Nat) (x : Nat) (g : Group) (l : Nat) : SameButPreds g (writePreds ks x g l) := by
  refine sameButPreds_foldl (fun h k => ?_) _ g
  rfl

/-- PMOV.V2P (04 R149). -/
def pmovV2pEffect (w : FmtA) (c : Ctx) : Group :=
  (lanesOf (c.lanes w.guard)).foldl (fun h l => writePreds (List.range 8) (srcA c.grp w l 1) h l) c.grp

theorem exec_pmovV2p (g : GroupRef) (w : FmtA) (s : State) : exec (.pmovV2p g w) s = done s (s.dev.issueGroup g
    (fun c => aUses c.grp.nv w { a := .reg 1, modOk := w.mod == 0 }) true 1 (insLen w.lf) (pmovV2pEffect w)) := rfl

theorem bitsSettled_pmovV2pEffect (w : FmtA) (c : Ctx) :
    BitsSettled (c.lanes w.guard) (fun n l => if n < 8 then some ((srcA c.grp w l 1).testBit n) else none) c.grp (pmovV2pEffect w c) := by
  refine bitsSettled_foldl (fun h l n m hm => ?_) _ _
  rw [getLsbD_readP_writePreds _ _ _ _ _ hm]
  by_cases hn : n < 8 <;> by_cases hl : m = l <;> simp [hn, hl]

theorem flags_pmovV2pEffect (w : FmtA) (c : Ctx) : (pmovV2pEffect w c).flags = c.grp.flags :=
  foldl_keeps_flags (fun h l => flags_writePreds _ _ h l) _ _

theorem sameButPreds_pmovV2pEffect (w : FmtA) (c : Ctx) : SameButPreds c.grp (pmovV2pEffect w c) :=
  sameButPreds_foldl (fun h l => sameButPreds_writePreds _ _ h l) _ _

theorem and_lanes_eq_self {p m : Lanes} : p &&& m = m ↔ ∀ l ∈ lanesOf m, p.getLsbD l = true := by
  simp only [mem_lanesOf]
  constructor
  · rintro h l ⟨-, hl⟩
    rw [← h, BitVec.getLsbD_and, Bool.and_eq_true] at hl
    exact hl.1
  · intro h
    refine BitVec.eq_of_getLsbD_eq (fun l hl => ?_)
    cases hm : m.getLsbD l with
    | false => rw [BitVec.getLsbD_and, hm, Bool.and_false]
    | true => rw [BitVec.getLsbD_and, hm, h l ⟨hl, hm⟩, Bool.and_self]

theorem and_lanes_eq_zero {p m : Lanes} : p &&& m = 0#32 ↔ ∀ l ∈ lanesOf m, p.getLsbD l = false := by
  have h : p &&& m = 0#32 ↔ ∀ l, l ∉ lanesOf (p &&& m) := lanesOf_eq_nil.symm.trans List.eq_nil_iff_forall_not_mem
  simp only [h, mem_lanesOf, BitVec.getLsbD_and, Bool.and_eq_true, not_and, Bool.not_eq_true, and_imp]
  exact forall₂_congr fun l _ => by cases p.getLsbD l <;> simp

/-- The outcome of VOTE as the model computes it from masks is the one over lanes (04 R166). -/
theorem voteEffect_pred {w : FmtA} {c : Ctx} (hm : w.mod.toNat < 3) (ha : w.a.toNat < 8) (hd : w.d.toNat < 8) :
    voteEffect w c = c.grp.writeP w.d.toNat (c.lanes w.guard) (if voted c w then BitVec.allOnes 32 else 0) := by
  have hmode : w.mod.toNat = 0 ∨ w.mod.toNat = 1 ∨ w.mod.toNat = 2 := by omega
  unfold voteEffect
  rw [Nat.mod_eq_of_lt ha, Nat.mod_eq_of_lt hd, if_neg (by omega)]
  congr 2
  have hall := @and_lanes_eq_self (c.grp.readP w.a.toNat) (c.lanes w.guard)
  have hnone := @and_lanes_eq_zero (c.grp.readP w.a.toNat) (c.lanes w.guard)
  obtain h | h | h := hmode
  · simp [voted, h, hall]
  · simp [voted, h, hnone, and_assoc]
  · simp [voted, h, hall, hnone]

/-! ## The statement -/

theorem takers_perThread {c : Ctx} {guard : BitVec 5} {uf : Bool} (h : uf = false) : c.takers guard uf = lanesOf (c.lanes guard) := by
  simp [Ctx.takers, h]

theorem rowsComplete_crossRows : RowsComplete crossRows := by
  intro r hr s g c w hc hl
  obtain ⟨us, hus, hwait⟩ := hl
  have hlanes : ∀ l ∈ lanesOf (c.lanes w.guard), l < 32 := fun l h => ((mem_lanesOf _ l).1 h).1
  simp only [crossRows, List.mem_cons, List.not_mem_nil, or_false] at hr
  obtain rfl | rfl | rfl := hr
  case inl =>
    obtain ⟨_, _, huni, _, _⟩ := of_aUses hus
    have hu : w.uf = false := by simpa using huni
    obtain ⟨t, hx, ho, hm⟩ := completes_of_issueGroup (exec_shfl g w s) hc ⟨us, hus, hwait⟩
    rw [shflEffect_eq] at hm
    rw [takers_perThread hu]
    exact ⟨t, _, hx, ho, hm, written_writeLanes hu hlanes c.grp, (flags_writeLanes c.grp).trans (foldl_or_zero _ _).symm⟩
  case inr.inl =>
    obtain ⟨hok, hlong, huni, _, _, ha⟩ := of_aUses hus
    have hmod : w.mod = 3 := by simpa using hok
    have hlf : w.lf = false := by simpa using hlong
    have hu : w.uf = false := by simpa using huni
    obtain ⟨t, hx, ho, hm⟩ := completes_of_issueGroup (exec_vote_ballot hlf hmod g s) hc ⟨us, hus, hwait⟩
    rw [voteEffect_ballot hmod (lt_of_fieldUses_pred ha)] at hm
    rw [takers_perThread hu]
    exact ⟨t, _, hx, ho, hm, written_writeLanes hu hlanes c.grp, (flags_writeLanes c.grp).trans (foldl_or_zero _ _).symm⟩
  case inr.inr =>
    obtain ⟨_, hlong, huni, _, _⟩ := of_aUses hus
    have hlf : w.lf = false := by simpa using hlong
    have hu : w.uf = false := by simpa using huni
    obtain ⟨t, hx, ho, hm⟩ := completes_of_issueGroup (exec_redux hlf g s) hc ⟨us, hus, hwait⟩
    rw [takers_perThread hu]
    obtain ⟨hwritten, hflags⟩ := written_reduxEffect (c := c) hu
    exact ⟨t, _, hx, ho, hm, hwritten, hflags⟩

theorem predsComplete_predRows : PredsComplete predRows := by
  intro r hr s g c w hc hl
  simp only [predRows, List.mem_cons, List.not_mem_nil, or_false] at hr
  obtain rfl | rfl | rfl | rfl | rfl := hr
  case inl =>
    obtain ⟨t, hx, ho, hm⟩ := completes_of_issueGroup (exec_isetp g w s) hc hl
    exact ⟨t, _, hx, ho, hm, bitsSettled_cmpEffect w _ _ c, flags_cmpEffect w _ _ c, sameButPreds_cmpEffect w _ _ c⟩
  case inr.inl =>
    obtain ⟨t, hx, ho, hm⟩ := completes_of_issueGroup (exec_fsetp g w s) hc hl
    exact ⟨t, _, hx, ho, hm, bitsSettled_cmpEffect w _ _ c, flags_cmpEffect w _ _ c, sameButPreds_cmpEffect w _ _ c⟩
  case inr.inr.inl =>
    obtain ⟨t, hx, ho, hm⟩ := completes_of_issueGroup (exec_plut g w s) hc hl
    refine ⟨t, _, hx, ho, hm, bitsSettled_writeP (fun l hl _ => ?_), (foldl_or_zero _ _).symm, rfl⟩
    rw [BitVec.getLsbD_ofNat, testBit_lut _ _ _ _ _ hl]
    simp only [hl, decide_true, Bool.true_and, BitVec.testBit_toNat, mul_indicator]
  case inr.inr.inr.inl =>
    obtain ⟨t, hx, ho, hm⟩ := completes_of_issueGroup (exec_pmovV2p g w s) hc hl
    exact ⟨t, _, hx, ho, hm, bitsSettled_pmovV2pEffect w c, (flags_pmovV2pEffect w c).trans (foldl_or_zero _ _).symm,
      sameButPreds_pmovV2pEffect w c⟩
  case inr.inr.inr.inr =>
    obtain ⟨us, hus, hwait⟩ := hl
    obtain ⟨hok, hlong, _, ⟨_, hd⟩, _, ha⟩ := of_aUses hus
    have hmod : w.mod.toNat < 3 := by simpa using hok
    have hlf : w.lf = false := by simpa using hlong
    obtain ⟨t, hx, ho, hm⟩ := completes_of_issueGroup (exec_vote_pred hlf hmod g s) hc ⟨us, hus, hwait⟩
    rw [voteEffect_pred hmod (lt_of_fieldUses_pred ha) (lt_of_fieldUses_pred hd)] at hm
    refine ⟨t, _, hx, ho, hm, bitsSettled_writeP (fun l hl _ => ?_), (foldl_or_zero _ _).symm, rfl⟩
    cases voted c w <;> simp [hl, -BitVec.reduceAllOnes]

/-- Settles O4: each row's command is the issue of its effect, whose lanes write their own registers or predicate bits. -/
theorem lanesAndPredicates : Obligations.LanesAndPredicates := by
  unfold Obligations.LanesAndPredicates
  exact ⟨rowsComplete_crossRows, predsComplete_predRows⟩

end Sys2Proof
end

section
/-! SUPPORT. What the accesses of the control plane leave unchanged (08 R265-R268, 11 R334, 14 R417): a read or a write at a
device virtual address, and what brings its lines, work on the caches and on memory alone. -/

namespace Sys2Proof

open Sys2Proof.Machine

/-! ## The device beyond caches and memory -/

/-- The device without slices, channels, memory, messages, activity counts and cached leaves; of the partitions, whose
spills are counted, the states remain. -/
def control (d : Dev) : Dev × (Nat → PartState) :=
  ({ d with slices := [], chans := [], mem := [], net := [], toHost := [], counts := [], xlate := [], parts := [] },
    fun p => (d.part p).state)

@[simp] theorem control_setSlice (d : Dev) (n : Nat) (x : Slice) : control (d.setSlice n x) = control d := rfl
@[simp] theorem control_setChan (d : Dev) (n : Nat) (x : Chan) : control (d.setChan n x) = control d := rfl
@[simp] theorem control_send (d : Dev) (m : Msg) : control (d.send m) = control d := rfl
theorem control_mem (d : Dev) (m : List Host.Cell) : control { d with mem := m } = control d := rfl
theorem control_toHost (d : Dev) (ms : List HostMsg) : control { d with toHost := ms } = control d := rfl
theorem control_xlate (d : Dev) (es : List XlateEntry) : control { d with xlate := es } = control d := rfl

theorem control_meter (d : Dev) (dom : Nat) (acct : Option Nat) (w : Nat) : control (d.meter dom acct w) = control d :=
  (congrArg control (Dev.meter_frame d dom acct w) :)

theorem control_memWriteLine (d : Dev) (n : Nat) (mask : BitVec 128) (data : LineData) :
    control (d.memWriteLine n mask data) = control d :=
  (congrArg control (Dev.memWriteLine_frame d n mask data) :)

@[simp] theorem control_bursts (d : Dev) (channel n : Nat) (acct : Option Nat) : control (d.bursts channel n acct) = control d :=
  (control_meter ..).trans (control_setChan ..)

/-- The partition counts its spills; its state stays. -/
theorem control_countSpill (d : Dev) (p n : Nat) : control (d.setPart p { d.part p with spills := n }) = control d := by
  refine Prod.ext rfl (funext fun j => ?_)
  simp only [control, Dev.part_setPart]
  split
  next h => rw [h]
  next => rfl

/-- What keeps the rest of the device keeps it through a fold. -/
theorem control_foldl {α : Type} {f : Dev → α → Dev} (hf : ∀ d x, control (f d x) = control d) (xs : List α) (d : Dev) :
    control (xs.foldl f d) = control d :=
  List.foldlRecOn (motive := fun e => control e = control d) xs f rfl (fun e he x _ => (hf e x).trans he)

/-! ## Lines brought and lines written -/

theorem control_placeRecord {d e : Dev} {p s : Nat} {y : Shadow} (h : d.placeRecord p s y = some e) : control e = control d := by
  unfold Dev.placeRecord at h
  dsimp only at h
  split at h
  · cases h
  · cases h
    exact (control_mem ..).trans (control_setSlice ..)

theorem control_spillShadow {d e : Dev} {p s : Nat} {y : Shadow} (h : d.spillShadow p s y = some e) : control e = control d := by
  obtain ⟨e1, h1, rfl⟩ := Option.map_eq_some_iff.1 h
  exact (control_countSpill ..).trans (control_placeRecord h1)

theorem control_writeBack (d : Dev) (p : Nat) (w : Way) : control (d.writeBack p w) = control d := by
  unfold Dev.writeBack
  split
  · split <;> rfl
  · dsimp only
    split
    · rw [control_bursts, control_memWriteLine]
    · exact control_memWriteLine ..

theorem control_sendInv (d : Dev) (s : Nat) (l : Line) (sharers : BitVec 8) : control (d.sendInv s l sharers) = control d := by
  refine control_foldl (fun d t => ?_) _ d
  split
  · exact control_send ..
  · rfl

theorem control_startInv {d e : Dev} {s : Nat} {w : Way} {victim : Bool} (h : d.startInv s w victim = some e) :
    control e = control d := by
  unfold Dev.startInv at h
  dsimp only at h
  split at h
  · cases h
  · cases h
    split
    · exact (control_toHost ..).trans (control_sendInv ..)
    · exact control_sendInv ..

theorem control_evictWay {d e : Dev} {p s key : Nat} {w : Way} (h : d.evictWay p s key w = some e) : control e = control d := by
  unfold Dev.evictWay at h
  dsimp only at h
  split at h
  · split at h
    · exact control_spillShadow h
    · cases h
      split
      · exact control_writeBack ..
      · rfl
  · split at h
    · exact control_startInv h
    · cases h
      exact control_writeBack ..

theorem control_prepare {d e : Dev} {p s set : Nat} {l : Line} {nd : Needs} (h : d.prepare p s set l nd = .again e) :
    control e = control d := by
  unfold Dev.prepare at h
  dsimp only at h
  split at h
  · cases h
  split at h
  · split at h
    · cases h; rfl
    · split at h
      · cases h
      next he => cases h; exact control_evictWay he
    · cases h
  · split at h
    · split at h
      · cases h
      split at h
      · cases h
      split at h
      · cases h
      · cases h; rfl
    · split at h
      · split at h
        · cases h
        next he => cases h; exact control_startInv he
      · split at h
        · split at h <;> cases h
        · split at h
          · cases h; rfl
          · split at h
            · cases h; rfl
            · cases h

theorem control_claim (d : Dev) (p : Nat) (l : Line) (write : Bool) : control (d.claim p l write) = control d := by
  unfold Dev.claim
  split
  · rfl
  split
  · rfl
  dsimp only
  split
  · rfl
  split
  next d1 h1 =>
    split
    next d2 h2 =>
      split
      next d3 h3 => exact (control_prepare h3).trans ((control_prepare h2).trans (control_prepare h1))
      next => exact (control_prepare h2).trans (control_prepare h1)
    next => exact control_prepare h1
  next => rfl

theorem control_pokeLine (d : Dev) (p : Nat) (l : Line) (mask : BitVec 128) (data : LineData) :
    control (d.pokeLine p l mask data) = control d := by
  unfold Dev.pokeLine
  split
  · rfl
  dsimp only
  split
  · split
    · rfl
    · refine (control_foldl (fun e t => ?_) _ _).trans (control_setSlice ..)
      split
      · split <;> rfl
      · rfl
  · exact control_memWriteLine ..

theorem control_engineBursts (d : Dev) (p : Nat) (l : Line) (sectors : BitVec 4) (acct : Option Nat) :
    control (d.engineBursts p l sectors acct) = control d := by
  unfold Dev.engineBursts
  split
  · split
    · rfl
    · exact control_bursts ..
  · rfl

/-! ## Translation, reads and writes -/

theorem control_walk (d : Dev) (p : Nat) (s : ImgSlot) (va : Nat) (levels : List (Nat × Nat × Nat)) (table : Nat) :
    control (d.walk p s va levels table).1 = control d := by
  induction levels generalizing table with
  | nil => rfl
  | cons level rest ih =>
    obtain ⟨lo, n, page⟩ := level
    unfold Dev.walk
    dsimp only
    split
    · rfl
    split
    · exact control_claim ..
    split
    · rfl
    split
    · split
      · rfl
      · exact ih _
    split
    · rfl
    split <;> rfl

theorem control_xlateInst (d : Dev) (p fn va : Nat) (write : Bool) : control (d.xlateInst p fn va write).1 = control d := by
  unfold Dev.xlateInst
  split
  · rfl
  split
  · split
    · rfl
    split <;> rfl
  split
  · rfl
  dsimp only
  split
  · rfl
  split
  · exact (control_xlate ..).trans (control_walk ..)
  · exact control_walk ..

theorem control_translate (d : Dev) (p fn va : Nat) (write : Bool) : control (d.translate p fn va write).1 = control d := by
  unfold Dev.translate
  split
  · rfl
  split
  · rfl
  · exact control_xlateInst ..

theorem control_cpReadFor (d : Dev) (p fn : Nat) (acct : Option Nat) (fuel va n : Nat) :
    control (d.cpReadFor p fn acct fuel va n).1 = control d := by
  induction fuel generalizing d va n with
  | zero => rw [Dev.cpReadFor]
  | succ fuel ih =>
    unfold Dev.cpReadFor
    split
    · rfl
    · rfl
    next va n _ _ _ _ hfuel _ =>
    cases hfuel
    let k := lineSpan va n
    have ht := control_translate d p fn va false
    dsimp only
    split
    case h_1 heq => rw [heq] at ht; exact ht
    case h_2 heq => rw [heq] at ht; exact ht
    case h_3 heq => rw [heq] at ht; exact ht
    case h_4 d1 x _ _ _ heq =>
      rw [heq] at ht
      split
      · exact ht
      split
      · exact (control_claim ..).trans ht
      next l _ _ _ _ =>
        have hrest := ih (d1.engineBursts p l (accessSectors (x.pa % 128) k) acct) (va + k) (n - k)
        have hboth := hrest.trans ((control_engineBursts ..).trans ht)
        split
        next hrest => rw [hrest] at hboth; exact hboth
        next => exact hboth

theorem control_cpRead (d : Dev) (p fn va n : Nat) (acct : Option Nat) : control (d.cpRead p fn va n acct).1 = control d :=
  control_cpReadFor ..

theorem control_cpWrite (d : Dev) (p fn va n v : Nat) (acct : Option Nat) : control (d.cpWrite p fn va n v acct).1 = control d := by
  have ht := control_translate d p fn va true
  unfold Dev.cpWrite
  split
  case h_1 heq => rw [heq] at ht; exact ht
  case h_2 heq => rw [heq] at ht; exact ht
  case h_3 heq => rw [heq] at ht; exact ht
  case h_4 heq =>
    rw [heq] at ht
    split
    · exact ht
    split
    · exact (control_pokeLine ..).trans ((control_engineBursts ..).trans ht)
    · exact (control_claim ..).trans ht

end Sys2Proof
end

section
/-! SUPPORT. Doorbell writes (11 R336, R337, R340), the tracker and ERROR (R332, R358, R362), and the pump of a partition whose
one task is a lone head (R343, R354-R356). -/

namespace Sys2Proof

open Sys2Proof.Machine

/-! ## What control determines -/

section Control

variable {d e : Dev} (h : control e = control d)

include h

theorem queues_of_control : e.queues = d.queues := (congrArg (fun x => x.1.queues) h :)
theorem tasks_of_control : e.tasks = d.tasks := (congrArg (fun x => x.1.tasks) h :)
theorem conf_of_control : e.conf = d.conf := (congrArg (fun x => x.1.conf) h :)
theorem insts_of_control : e.insts = d.insts := (congrArg (fun x => x.1.insts) h :)
theorem stage_of_control : e.stage = d.stage := (congrArg (fun x => x.1.stage) h :)
theorem ledger_of_control : e.ledger = d.ledger := (congrArg (fun x => x.1.ledger) h :)

theorem queue_of_control (k : Nat) : e.queue k = d.queue k := by
  rw [Dev.queue, Dev.queue, queues_of_control h]

theorem partRuns_of_control (p : Nat) : e.partRuns p = d.partRuns p :=
  congrArg (· == PartState.running) (congrFun (congrArg Prod.snd h) p :)

end Control

/-! ## Queues and their partitions -/

theorem queue_setQueue_self (d : Dev) (q : Nat) (x : Queue) : (d.setQueue q x).queue q = x := by
  rw [Dev.queue_setQueue, if_pos rfl]

theorem partOfQueue_of_conf {d e : Dev} (h : e.conf = d.conf) (q : Nat) : e.partOfQueue q = d.partOfQueue q := by
  simp only [Dev.partOfQueue, Dev.partOfLode, Dev.pconf, h]

theorem fnOfQueue_of_conf {d e : Dev} (h : e.conf = d.conf) (q : Nat) : e.fnOfQueue q = d.fnOfQueue q := by
  simp only [Dev.fnOfQueue, Dev.fnOfBlock, Dev.partOfLode, Dev.pconf, h]

/-- Whether a queue fetches rests on its state, its partition's and its function's. -/
theorem fetches_congr {d e : Dev} {q : Nat} (hconf : e.conf = d.conf) (hinsts : e.insts = d.insts)
    (hruns : ∀ p, e.partRuns p = d.partRuns p) (hstate : (e.queue q).state = (d.queue q).state) : e.fetches q = d.fetches q := by
  simp only [Dev.fetches, Dev.fnState, Dev.inst, partOfQueue_of_conf hconf, fnOfQueue_of_conf hconf, hinsts, hruns, hstate]

theorem active_of_fetches {d : Dev} {q : Nat} (h : d.fetches q = true) : (d.queue q).state = .active := by
  unfold Dev.fetches at h
  split at h
  · cases h
  · simp only [Bool.and_eq_true, beq_iff_eq] at h
    exact h.1.1

/-- A key whose value is not the default is listed. -/
theorem mem_keys_of_sget_ne {α : Type} {dflt : α} {l : Sparse α} {k : Nat} (h : sget dflt l k ≠ dflt) : k ∈ l.map (fun x => x.1) := by
  induction l with
  | nil => exact absurd rfl h
  | cons x xs ih =>
    by_cases hk : x.1 = k
    · exact List.mem_map.2 ⟨x, List.mem_cons_self, hk⟩
    · exact List.mem_cons_of_mem _ (ih fun hxs => h ((if_neg hk).trans hxs))

/-- A queue whose cursors run is listed: it is not FREE. -/
theorem mem_queues_of_fetches {d : Dev} {q : Nat} (h : d.fetches q = true) : q ∈ d.queues.map (fun x => x.1) := by
  refine mem_keys_of_sget_ne (dflt := ({} : Queue)) fun hq => ?_
  have hstate : QState.free = .active := (congrArg Queue.state hq).symm.trans (active_of_fetches h)
  cases hstate

/-! ## Doorbell writes -/

theorem exec_dblProducer {s : State} {src : DblSource} {page slot q : Nat} (v : DWord) (h : s.dev.bellTarget src page slot = some q) :
    exec (.dblProducer src page slot v) s = done s (s.dev.bellWrite q 0 v.toNat) := by
  change execDblProducer src page slot v s = _
  simp only [execDblProducer, h]

theorem exec_bootstrapCreate {s : State} {src : DblSource} {page slot q : Nat} (v : DWord)
    (h : s.dev.bellTarget src page slot = some q) :
    exec (.bootstrapCreate src page slot v) s = done s (s.dev.bellWrite q 0x28 v.toNat) := by
  change execBootstrapCreate src page slot v s = _
  simp only [execBootstrapCreate, h]

theorem bellWrite_producer {d : Dev} {q p : Nat} (hp : d.partOfQueue q = some p) (ht : d.bellTaken q = true) (v : Nat) :
    d.bellWrite q 0 v = d.ring p q v := by
  simp [Dev.bellWrite, hp, ht]

theorem bellWrite_bootCfg {d : Dev} {q p : Nat} (hp : d.partOfQueue q = some p) (ht : d.bellTaken q = true) (v : Nat) :
    d.bellWrite q 0x28 v = d.bootCreate p q v := by
  simp [Dev.bellWrite, hp, ht]

/-! ## ERROR (R362) -/

/-- What a queue in ERROR shows of its failure, with its producer index: no later end of a task changes it. -/
def failureOf (x : Queue) : QState × Nat × Nat × Nat := (x.state, x.errStatus, x.errIndex, x.producer)

theorem failureOf_riseFor (x : Queue) (fuel : Nat) : failureOf (x.riseFor fuel) = failureOf x := by
  induction fuel generalizing x with
  | zero => rfl
  | succ fuel ih =>
    unfold Queue.riseFor
    split
    · exact ih _
    · rfl

theorem failureOf_rise (x : Queue) : failureOf x.rise = failureOf x := by
  unfold Queue.rise
  dsimp only
  split
  · exact failureOf_riseFor x _
  · exact failureOf_riseFor x _

theorem control_cplRecord (d : Dev) (p : Nat) (t : Task) (st info : Nat) : control (d.cplRecord p t st info).1 = control d := by
  unfold Dev.cplRecord
  split
  · exact control_cpWrite ..
  · rfl

theorem failureOf_retire (d : Dev) (t : Task) (st : Nat) (ok : Bool) (k : Nat) :
    failureOf ((d.retire t st ok).queue k) = failureOf (d.queue k) := by
  have hset : ∀ e : Dev, e.queues = d.queues →
      failureOf ((e.setQueue t.q ({ d.queue t.q with ended := (d.queue t.q).ended ++ [(t.i, ok)] } : Queue).rise).queue k)
        = failureOf (d.queue k) := by
    intro e he
    rw [Dev.queue_setQueue]
    split
    next hk => rw [failureOf_rise, hk]; rfl
    next => rw [Dev.queue, Dev.queue, he]
  unfold Dev.retire
  dsimp only
  split
  · exact hset _ rfl
  · exact hset _ rfl

theorem failureOf_endTask (d : Dev) (p : Nat) (t : Task) (st info k : Nat) :
    failureOf ((d.endTask p t st info).queue k) = failureOf (d.queue k) := by
  have hrec := queue_of_control (control_cplRecord d p t st info) k
  unfold Dev.endTask
  split
  next d1 heq => rw [heq] at hrec; exact congrArg failureOf hrec
  next d1 _ _ heq => rw [heq] at hrec; exact (failureOf_retire ..).trans (congrArg failureOf hrec)

/-- An ACTIVE queue that fails is in ERROR with the status and the index of the failure; its producer index stays. -/
theorem failureOf_enterError {d : Dev} {q : Nat} (p i st : Nat) (h : (d.queue q).state = .active) :
    failureOf ((d.enterError p q i st).queue q) = (.error, st, i, (d.queue q).producer) := by
  unfold Dev.enterError
  dsimp only
  rw [if_pos h]
  refine List.foldlRecOn (motive := fun e : Dev => failureOf (e.queue q) = _) _ _ ?_ (fun e he t _ => (failureOf_endTask ..).trans he)
  rw [queue_setQueue_self, failureOf_rise]
  rfl

/-! ## A lone head -/

/-- The device holds one task, which waits in a queue of partition `p` whose cursors run. -/
structure LoneHead (d : Dev) (p : Nat) (x : Task) : Prop where
  tasks : d.tasks = [x]
  part : d.partOfQueue x.q = some p
  fetches : d.fetches x.q = true
  state : x.state = .fetched
  timer : x.timer = none

theorem setTask_tasks_lone {d : Dev} {x y : Task} (h : d.tasks = [x]) (hq : y.q = x.q) (hi : y.i = x.i) :
    (d.setTask y).tasks = [y] := by
  simp [Dev.setTask, h, hq, hi]

/-- The one task is the only one that can be a head, of its own queue and slot, while it is fetched. -/
theorem eq_of_waitingHead {d : Dev} {q s : Nat} {x t : Task} (h : d.tasks = [x]) (ht : d.waitingHead q s = some t) :
    t = x ∧ x.state = .fetched := by
  unfold Dev.waitingHead Dev.headOf at ht
  rw [h, List.filter_cons] at ht
  split at ht
  next t' ht' =>
    split at ht'
    · cases ht'
      obtain ⟨hs, he⟩ := Option.ite_none_right_eq_some.1 ht
      exact ⟨(Option.some.inj he).symm, hs⟩
    · cases ht'
  next => cases ht

theorem LoneHead.waitingHead {d : Dev} {p : Nat} {x : Task} (h : LoneHead d p x) : d.waitingHead x.q x.slot = some x := by
  simp [Dev.waitingHead, Dev.headOf, h.tasks, h.state, h.timer]

theorem eq_of_mem_heads {d : Dev} {p : Nat} {x t : Task} (h : d.tasks = [x]) (ht : t ∈ d.heads p) : t = x ∧ x.state = .fetched := by
  unfold Dev.heads at ht
  simp only [List.mem_flatMap, List.mem_filterMap] at ht
  obtain ⟨q, -, s, -, hw⟩ := ht
  exact eq_of_waitingHead h hw

theorem heads_of_not_fetched {d : Dev} {x : Task} (p : Nat) (h : d.tasks = [x]) (hs : x.state ≠ .fetched) : d.heads p = [] :=
  List.eq_nil_iff_forall_not_mem.2 fun _ ht => hs (eq_of_mem_heads h ht).2

theorem LoneHead.mem_heads {d : Dev} {p : Nat} {x : Task} (h : LoneHead d p x) : x ∈ d.heads p := by
  have hbusy : x.q ∈ d.busyQueues p := by
    refine List.mem_filter.2 ⟨mem_queues_of_fetches h.fetches, ?_⟩
    simp [h.part, h.fetches, h.tasks]
  have hslot : x.slot < 4 := Nat.mod_lt _ (by decide)
  exact List.mem_flatMap.2 ⟨_, hbusy, List.mem_filterMap.2 ⟨_, List.mem_range.2 hslot, h.waitingHead⟩⟩

/-- A queue may be listed more than once in a list that is not canonical, and so may its head. -/
theorem LoneHead.heads {d : Dev} {p : Nat} {x : Task} (h : LoneHead d p x) : ∃ n, d.heads p = List.replicate (n + 1) x := by
  obtain ⟨n, hn⟩ := Nat.exists_eq_succ_of_ne_zero (Nat.ne_of_gt (List.length_pos_of_mem h.mem_heads))
  exact ⟨n, List.eq_replicate_iff.2 ⟨hn, fun t ht => (eq_of_mem_heads h.tasks ht).1⟩⟩

/-! ## One step of a lone head (R582, R354-R356) -/

/-- A task that becomes a head and passes its checks is marked. -/
theorem LoneHead.pumpOne_check {d : Dev} {p : Nat} {x : Task} (h : LoneHead d p x) (hh : x.head = false) (hst : d.headStatus x = 0) :
    d.pumpOne p = some (d.setTask { x with head := true }) := by
  obtain ⟨n, hn⟩ := h.heads
  simp [Dev.pumpOne, hn, List.replicate_succ, hh, hst]

theorem foldl_replicate_pick {α : Type} (better : α → α → Bool) (x : α) (n : Nat) :
    (List.replicate n x).foldl (fun b c => if better c b then c else b) x = x := by
  induction n with
  | zero => rfl
  | succ n ih => rw [List.replicate_succ, List.foldl_cons, ite_self, ih]

/-- A head whose conditions are met is released. -/
theorem LoneHead.pumpOne_release {d : Dev} {p : Nat} {x : Task} (h : LoneHead d p x) (hh : x.head = true)
    (hf : (d.fences p x).2 = .met) (hw : d.headWait p x = 0) : d.pumpOne p = some (d.releaseTask p x) := by
  obtain ⟨n, hn⟩ := h.heads
  simp [Dev.pumpOne, hn, hh, hf, hw, List.replicate_succ, foldl_replicate_pick]

/-- A head that waits for a fence stays. -/
theorem LoneHead.pumpOne_unmet {d : Dev} {p : Nat} {x : Task} (h : LoneHead d p x) (hh : x.head = true)
    (hd : d.depsMet x = true) (hf : (d.fences p x).2 = .unmet) : d.pumpOne p = none := by
  obtain ⟨n, hn⟩ := h.heads
  have hw : d.headWait p x = waitFence := by simp [Dev.headWait, hd, hf]
  simp [Dev.pumpOne, hn, hh, hf, hw, waitFence]

theorem pumpOne_of_heads_nil {d : Dev} {p : Nat} (h : d.heads p = []) : d.pumpOne p = none := by
  simp [Dev.pumpOne, h]

theorem pumpFor_of_none {d : Dev} {p : Nat} (h : d.pumpOne p = none) (fuel : Nat) : d.pumpFor p fuel = d := by
  cases fuel with
  | zero => rfl
  | succ fuel => simp only [Dev.pumpFor, h]

theorem pumpFor_of_some {d e : Dev} {p : Nat} (h : d.pumpOne p = some e) (fuel : Nat) : d.pumpFor p (fuel + 1) = e.pumpFor p fuel := by
  simp only [Dev.pumpFor, h]

theorem pollFences_of_heads_nil {d : Dev} {p : Nat} (h : d.heads p = []) : d.pollFences p = d := by
  simp [Dev.pollFences, h]

/-! ## Release (R356) -/

theorem bindAccount_eq (d : Dev) (fn tag : Nat) : ∃ lg n, d.bindAccount fn tag = ({ d with ledger := lg }, n) := by
  unfold Dev.bindAccount
  split
  · exact ⟨_, _, rfl⟩
  · split <;> exact ⟨_, _, rfl⟩

/-- A release marks the task, and changes the ledger and the engines alone. -/
theorem releaseTask_eq (d : Dev) (p : Nat) (t : Task) : ∃ a lg en, d.releaseTask p t =
    { d.setTask { t with state := .released, head := true, timer := d.timerSlot p t.q, acct := a } with ledger := lg, engines := en } := by
  obtain ⟨lg, n, hb⟩ := bindAccount_eq d (d.fnOfQueue t.q) t.tag
  unfold Dev.releaseTask
  rw [hb]
  split
  next d1 a hd1 =>
    have hd : ∃ lg, d1 = { d with ledger := lg } := by
      split at hd1 <;> cases hd1
      · exact ⟨d.ledger, rfl⟩
      · exact ⟨lg, rfl⟩
    obtain ⟨lg, rfl⟩ := hd
    dsimp only
    split <;> exact ⟨a, lg, _, rfl⟩

theorem releaseTask_tasks {d : Dev} {x : Task} (p : Nat) (h : d.tasks = [x]) :
    ∃ y, (d.releaseTask p x).tasks = [y] ∧ y.q = x.q ∧ y.i = x.i ∧ y.desc = x.desc ∧ y.state = .released ∧ y.head = true := by
  obtain ⟨a, lg, en, he⟩ := releaseTask_eq d p x
  exact ⟨_, (congrArg Dev.tasks he).trans (setTask_tasks_lone h rfl rfl), rfl, rfl, rfl, rfl, rfl⟩

theorem releaseTask_queue (d : Dev) (p : Nat) (t : Task) (k : Nat) : (d.releaseTask p t).queue k = d.queue k := by
  obtain ⟨a, lg, en, he⟩ := releaseTask_eq d p t
  rw [he]; rfl

theorem releaseTask_mem (d : Dev) (p : Nat) (t : Task) : (d.releaseTask p t).mem = d.mem := by
  obtain ⟨a, lg, en, he⟩ := releaseTask_eq d p t
  rw [he]; rfl

theorem heads_releaseTask {d : Dev} {x : Task} (p : Nat) (h : d.tasks = [x]) : (d.releaseTask p x).heads p = [] := by
  obtain ⟨y, hy, -, -, -, hstate, -⟩ := releaseTask_tasks p h
  exact heads_of_not_fetched p hy (by rw [hstate]; decide)

/-! ## The pump of a lone head -/

theorem LoneHead.pumpFor_release {d : Dev} {p : Nat} {x : Task} (h : LoneHead d p x) (hh : x.head = true)
    (hf : (d.fences p x).2 = .met) (hw : d.headWait p x = 0) (fuel : Nat) : d.pumpFor p (fuel + 1) = d.releaseTask p x :=
  (pumpFor_of_some (h.pumpOne_release hh hf hw) fuel).trans
    (pumpFor_of_none (pumpOne_of_heads_nil (heads_releaseTask p h.tasks)) fuel)

/-- The steps of the pump, for the one task that the device holds. -/
theorem pump_lone {d : Dev} {x : Task} (p : Nat) (h : d.tasks = [x]) : d.pump p = (d.pumpFor p 7).pollFences p := by
  rw [Dev.pump, h]; rfl

theorem LoneHead.pump_release {d : Dev} {p : Nat} {x : Task} (h : LoneHead d p x) (hh : x.head = true)
    (hf : (d.fences p x).2 = .met) (hw : d.headWait p x = 0) : d.pump p = d.releaseTask p x := by
  rw [pump_lone p h.tasks, h.pumpFor_release hh hf hw, pollFences_of_heads_nil (heads_releaseTask p h.tasks)]

theorem LoneHead.marked {d : Dev} {p : Nat} {x : Task} (h : LoneHead d p x) :
    LoneHead (d.setTask { x with head := true }) p { x with head := true } :=
  ⟨setTask_tasks_lone h.tasks rfl rfl, h.part, h.fetches, h.state, h.timer⟩

/-- A task whose conditions are met becomes a head and is released at once. -/
theorem LoneHead.pump_checked {d : Dev} {p : Nat} {x : Task} (h : LoneHead d p x) (hh : x.head = false) (hst : d.headStatus x = 0)
    (hf : ((d.setTask { x with head := true }).fences p { x with head := true }).2 = .met)
    (hw : (d.setTask { x with head := true }).headWait p { x with head := true } = 0) :
    d.pump p = (d.setTask { x with head := true }).releaseTask p { x with head := true } := by
  rw [pump_lone p h.tasks, pumpFor_of_some (h.pumpOne_check hh hst), h.marked.pumpFor_release rfl hf hw,
    pollFences_of_heads_nil (heads_releaseTask p h.marked.tasks)]

theorem control_fences (d : Dev) (p : Nat) (t : Task) : control (d.fences p t).1 = control d := by
  refine List.foldlRecOn (motive := fun r : Dev × Fences => control r.1 = control d) _ _ rfl (fun r hr k _ => ?_)
  have hread := (control_cpRead r.1 p (d.fnOfQueue t.q) (t.fenceVa k) 8 none).trans hr
  split
  · exact hr
  split
  case h_1 heq => rw [heq] at hread; exact hread
  case h_2 heq => rw [heq] at hread; exact hread
  case h_3 heq =>
    rw [heq] at hread
    split <;> exact hread

theorem pollFences_tasks (d : Dev) (p : Nat) : (d.pollFences p).tasks = d.tasks := by
  refine tasks_of_control (control_foldl (fun e t => ?_) _ d)
  split
  · exact control_fences ..
  · rfl

theorem LoneHead.pump_unmet_tasks {d : Dev} {p : Nat} {x : Task} (h : LoneHead d p x) (hh : x.head = true)
    (hd : d.depsMet x = true) (hf : (d.fences p x).2 = .unmet) : (d.pump p).tasks = [x] := by
  rw [pump_lone p h.tasks, pumpFor_of_none (h.pumpOne_unmet hh hd hf), pollFences_tasks, h.tasks]

/-! ## A NOP of which every other field is 0 (R345, R346) -/

theorem bytesAt_two {k : Nat} (hk : k ≠ 0) (len : Nat) : bytesAt 2 k len = 0 := by
  have hlt : 2 < 2 ^ (8 * k) := Nat.lt_of_le_of_lt (by omega : 2 ≤ 8 * k) (Nat.lt_pow_self (by decide))
  have h : 2 >>> (8 * k) = 0 := Nat.shiftRight_eq_zero _ _ hlt
  rw [bytesAt, h, Nat.zero_mod]

section Nop

variable {t : Task} (h : t.desc = 2)

include h

theorem cls_of_nop : t.cls = 2 := by rw [Task.cls, h]; decide
theorem fop_of_nop : t.fop = 0 := by rw [Task.fop, h, bytesAt_two (by decide)]
theorem slot_of_nop : t.slot = 0 := by rw [Task.slot, Task.engine, h, bytesAt_two (by decide)]
theorem dep_of_nop (k : Nat) : t.dep k = 0 := by simp [Task.dep, h, bytesAt_two]
theorem fenceUsed_of_nop (k : Nat) : t.fenceUsed k = false := by rw [Task.fenceUsed, fop_of_nop h, Nat.zero_testBit]

theorem headStatus_of_nop {d : Dev} (hb : bindByte (d.queue t.q).binding 0 / 128 % 2 = 1) : d.headStatus t = 0 := by
  have hclass : classOf 2 = some .quarter := rfl
  have hvalid : bindValid (bindByte (d.queue t.q).binding 0) = true := by
    rw [bindValid, Nat.testBit_eq_decide_div_mod_eq, hb]; rfl
  simp [Dev.headStatus, hclass, cls_of_nop h, slot_of_nop h, hvalid, fenceUsed_of_nop h, Task.fenceVa, Task.fenceVal, Task.flags,
    Task.engine, Task.cpl, Task.cplVa, Task.aux16, Task.aux32, fop_of_nop h, h, bytesAt_two, kernelOnly, clsKernel]

theorem depsMet_of_nop (d : Dev) : d.depsMet t = true := by simp [Dev.depsMet, dep_of_nop h]

theorem fences_of_nop (d : Dev) (p : Nat) : d.fences p t = (d, .met) := by
  simp [Dev.fences, List.range_succ, fenceUsed_of_nop h]

end Nop

/-- A task finds a slot while the partition's remainder is not used. -/
theorem timerSlot_isSome {d : Dev} {x : Task} (p : Nat) (h : d.tasks = [x]) (hx : x.timer = none) (hr : 0 < d.timerRemainder p) :
    (d.timerSlot p x.q).isSome = true := by
  have hnone : ∀ (b : Bool) (f : Task → Bool), [x].filter (fun t => t.timer == some b && f t) = [] := by simp [hx]
  simp only [Dev.timerSlot, h, hnone, List.length_nil, if_pos hr]
  split <;> rfl

theorem headWait_of_nop {d : Dev} {p : Nat} {t : Task} (h : t.desc = 2) (htasks : d.tasks = [t]) (hx : t.timer = none)
    (hr : 0 < d.timerRemainder p) (hs : d.stage < 3) (hl : d.ledger.page.tickets.length < 65536) : d.headWait p t = 0 := by
  have hslot := timerSlot_isSome p htasks hx hr
  have hclass : classOf t.cls = some .quarter := by rw [cls_of_nop h]; rfl
  simp [Dev.headWait, depsMet_of_nop h, fences_of_nop h, Option.isSome_iff_ne_none.1 hslot, Dev.accepts, hclass, Nat.not_le.2 hs,
    Dev.ledgerWait, Nat.not_le.2 hl]

end Sys2Proof
end

section
/-! SUPPORT. Doorbells, the reading and the release of descriptors (11 R337, R340, R342, R355, R356). -/

namespace Sys2Proof

open Sys2Proof.Machine

/-! ## A producer write (R337) -/

theorem ring_raise {d : Dev} {p q v : Nat} (ha : (d.queue q).state = .active) (hv : (d.queue q).producer < v)
    (hr : v ≤ (d.queue q).retired + 2 ^ (d.queue q).log2) : d.ring p q v = d.setQueue q { d.queue q with producer := v } := by
  simp [Dev.ring, ha, Nat.not_le.2 hv, Nat.not_lt.2 hr]

theorem ring_ignored {d : Dev} {p q v : Nat} (h : (d.queue q).state ≠ .active ∨ v ≤ (d.queue q).producer) : d.ring p q v = d := by
  simp only [Dev.ring, if_pos h]

theorem ring_overrun {d : Dev} {p q v : Nat} (ha : (d.queue q).state = .active) (hv : (d.queue q).producer < v)
    (hr : (d.queue q).retired + 2 ^ (d.queue q).log2 < v) :
    d.ring p q v = d.enterError p q (d.queue q).producer stDoorbellOverrun := by
  simp [Dev.ring, ha, Nat.not_le.2 hv, hr]

/-! ## A bootstrap write (R340) -/

/-- The status that the checks of R352 give a written DBL_BOOT_CFG, with the ring in DBL_BOOT_RING. -/
def bootStatus (d : Dev) (p q v : Nat) : Nat :=
  d.createStatus p (v / 2 ^ 60 % 8 == 0) (BitVec.ofNat 32 v) (v / 2 ^ 32 % 2 ^ 26) ((d.queue q).bootRing.toNat % 2 ^ 56)
    ((d.queue q).bootRing.toNat / 2 ^ 56)

/-- The queue that a bootstrap write creates: kernel, with its indices at 0. -/
def bootQueue (d : Dev) (q v : Nat) : Queue :=
  { ringVa := (d.queue q).bootRing.toNat % 2 ^ 56, log2 := (d.queue q).bootRing.toNat / 2 ^ 56, state := .active, fn := d.fnOfQueue q
    kernel := true, prio := v / 2 ^ 58 % 4, timeout := v / 2 ^ 32 % 2 ^ 26, binding := BitVec.ofNat 32 v
    bootRing := (d.queue q).bootRing, bootCfg := BitVec.ofNat 64 (v % 2 ^ 63) }

/-- A write that asks for creation creates the queue, or leaves in it the status of the check that failed. -/
theorem bootCreate_of_free {d : Dev} {p q v : Nat} (hf : (d.queue q).state = .free) (hb : d.isBootQueue q = true)
    (hv : v / 2 ^ 63 = 1) :
    d.bootCreate p q v = if bootStatus d p q v = 0 then d.setQueue q (bootQueue d q v)
      else d.setQueue q { d.queue q with bootCfg := BitVec.ofNat 64 (v % 2 ^ 63), errStatus := bootStatus d p q v } := by
  unfold Dev.bootCreate
  dsimp only
  rw [if_neg (by simp [hf, hb]), if_neg (by rw [hv]; decide)]
  rfl

/-! ## The next descriptor (R342) -/

theorem exec_descriptorRead (q : Nat) (s : State) : exec (.descriptorRead q) s = done s (doDescriptorRead q s.dev) := rfl
theorem exec_fencePoll (q cursor : Nat) (s : State) : exec (.fencePoll q cursor) s = done s (doFencePoll q cursor s.dev) := rfl

/-- The device after the descriptor at the fetch index of a queue has been read: `d1` is the device after the read. -/
def afterRead (d1 : Dev) (q desc : Nat) : Dev :=
  { d1.setQueue q { d1.queue q with fetched := (d1.queue q).fetched + 1 } with
    tasks := d1.tasks ++ [{ q := q, i := (d1.queue q).fetched, desc := desc }] }

theorem doDescriptorRead_ok {d d1 : Dev} {q p v : Nat} (hp : d.partOfQueue q = some p) (hf : d.fetches q = true) (hs : d.stage < 4)
    (hlt : (d.queue q).fetched < (d.queue q).producer) (hwin : (d.queue q).fetched < (d.queue q).retired + 256)
    (he : (d.queue q).ended = [])
    (hr : d.cpRead p (d.fnOfQueue q) ((d.queue q).ringVa + 128 * ((d.queue q).fetched % 2 ^ (d.queue q).log2)) 128 = (d1, .ok v)) :
    doDescriptorRead q d = (afterRead d1 q v).pump p := by
  have hq : d1.queue q = d.queue q := queue_of_control ((congrArg (fun r => control r.1) hr).symm.trans (control_cpRead ..)) q
  simp [doDescriptorRead, hp, hf, hlt, hwin, hs, he, hr, afterRead, hq]

theorem doFencePoll_waiting {d : Dev} {q cursor p : Nat} {x : Task} (hp : d.partOfQueue q = some p) (hf : d.fetches q = true)
    (hs : d.stage < 4) (hx : d.waitingHead q cursor = some x) : doFencePoll q cursor d = d.pump p := by
  simp [doFencePoll, hp, hf, hs, hx]

theorem queue_afterRead {d d1 : Dev} (h : control d1 = control d) (q v : Nat) :
    (afterRead d1 q v).queue q = { d.queue q with fetched := (d.queue q).fetched + 1 } := by
  change (d1.setQueue q _).queue q = _
  rw [queue_setQueue_self, queue_of_control h]

/-- The task read is the lone head of its partition. -/
theorem loneHead_afterRead {d d1 : Dev} {q p v : Nat} (h : control d1 = control d) (ht : d.tasks = []) (hp : d.partOfQueue q = some p)
    (hf : d.fetches q = true) : LoneHead (afterRead d1 q v) p { q := q, i := (d.queue q).fetched, desc := v } := by
  have hconf : (afterRead d1 q v).conf = d.conf := (conf_of_control h :)
  constructor
  case tasks =>
    change d1.tasks ++ _ = _
    rw [tasks_of_control h, ht, queue_of_control h]; rfl
  case part => exact (partOfQueue_of_conf hconf q).trans hp
  case fetches =>
    have hstate := congrArg Queue.state (queue_afterRead h q v)
    exact (fetches_congr hconf (insts_of_control h :) (partRuns_of_control h :) hstate).trans hf
  case state => rfl
  case timer => rfl

/-- A NOP read is marked as head and released at once; memory is as the read left it. -/
theorem pump_afterRead_nop {d d1 e : Dev} {q p : Nat} (he : (afterRead d1 q 2).pump p = e) (h : control d1 = control d)
    (ht : d.tasks = []) (hp : d.partOfQueue q = some p) (hf : d.fetches q = true) (hs : d.stage < 3)
    (hb : bindByte (d.queue q).binding 0 / 128 % 2 = 1) (hr : 0 < d.timerRemainder p) (hl : d.ledger.page.tickets.length < 65536) :
    ∃ y, (e.queue q).fetched = (d.queue q).fetched + 1 ∧ e.tasks = [y] ∧ y.q = q ∧ y.i = (d.queue q).fetched ∧ y.desc = 2
      ∧ y.state = .released ∧ y.head = true ∧ e.mem = d1.mem := by
  have hlone := loneHead_afterRead (v := 2) h ht hp hf
  have hqueue := queue_afterRead h q 2
  have hconf : (afterRead d1 q 2).conf = d.conf := (conf_of_control h :)
  have hrem : (afterRead d1 q 2).timerRemainder p = d.timerRemainder p := by
    simp only [Dev.timerRemainder, Dev.partOfLode, Dev.pconf, hconf]
  have hstatus := headStatus_of_nop (t := { q := q, i := (d.queue q).fetched, desc := 2 }) rfl
    (d := afterRead d1 q 2) (by rw [hqueue]; exact hb)
  have hmet := fences_of_nop (t := { q := q, i := (d.queue q).fetched, desc := 2, head := true }) rfl
    ((afterRead d1 q 2).setTask { q := q, i := (d.queue q).fetched, desc := 2, head := true }) p
  have hwait := headWait_of_nop (p := p) rfl hlone.marked.tasks rfl (hrem.symm ▸ hr :) ((stage_of_control h).symm ▸ hs :)
    ((ledger_of_control h).symm ▸ hl :)
  rw [hlone.pump_checked rfl hstatus (congrArg Prod.snd hmet) hwait] at he
  subst he
  obtain ⟨y, hy, hyq, hyi, hyd, hys, hyh⟩ := releaseTask_tasks p hlone.marked.tasks
  refine ⟨y, ?_, hy, hyq, hyi, hyd, hys, hyh, releaseTask_mem ..⟩
  rw [releaseTask_queue]
  exact congrArg Queue.fetched hqueue

/-! ## The statement -/

/-- Settles O21: a doorbell write is the ring or the creation of its queue; a descriptor read leaves a lone head, which the
pump checks and releases; a fence poll is the pump of a lone head. -/
theorem doorbells : Obligations.Doorbells := by
  unfold Obligations.Doorbells
  refine ⟨?writes, ?reads, ?polls⟩
  case writes =>
    intro s src page slot q p v hq ht hp
    have hx := (exec_dblProducer v hq).trans (congrArg (done s) (bellWrite_producer hp ht v.toNat))
    have hboot := (exec_bootstrapCreate v hq).trans (congrArg (done s) (bellWrite_bootCfg hp ht v.toNat))
    refine ⟨fun ha hv hr => ?raise, fun h => ?ignored, fun ha hv hr => ?overrun, fun hf hb hv =>
      ⟨fun hst => ?create, fun hst => ?refuse⟩⟩
    case raise => exact hx.trans (congrArg (done s) (ring_raise ha hv hr))
    case ignored => exact hx.trans (congrArg (done s) (ring_ignored h))
    case overrun =>
      refine ⟨_, ⟨hx.trans (congrArg (done s) (ring_overrun ha hv hr)), rfl, rfl⟩, ?_⟩
      have hfail := failureOf_enterError p (s.dev.queue q).producer stDoorbellOverrun ha
      simp only [failureOf, Prod.mk.injEq] at hfail
      exact hfail
    case create =>
      have hcreate := hboot.trans (congrArg (done s) ((bootCreate_of_free hf hb hv).trans (if_pos hst)))
      exact ⟨_, ⟨hcreate, rfl, rfl⟩, fun k hk => (Dev.queue_setQueue ..).trans (if_neg hk), queue_setQueue_self ..⟩
    case refuse =>
      have hrefuse := hboot.trans (congrArg (done s) ((bootCreate_of_free hf hb hv).trans (if_neg hst)))
      exact ⟨_, ⟨hrefuse, rfl, rfl⟩, (congrArg Queue.state (queue_setQueue_self ..)).trans hf,
        congrArg Queue.errStatus (queue_setQueue_self ..)⟩
  case reads =>
    intro s q p d1 ht hp hf hs x hlt hwin hended hb hr hl hread
    have hcontrol := (congrArg (fun r => control r.1) hread).symm.trans (control_cpRead ..)
    have hx := (exec_descriptorRead q s).trans (congrArg (done s) (doDescriptorRead_ok hp hf (by omega) hlt hwin hended hread))
    generalize he : (afterRead d1 q 2).pump p = e at hx
    obtain ⟨y, hy⟩ := pump_afterRead_nop he hcontrol ht hp hf hs hb hr hl
    exact ⟨s.withDev e, y, ⟨hx, rfl, rfl⟩, hy⟩
  case polls =>
    rintro s q cursor p x ht rfl rfl hp hf hs hstate hhead htimer
    have hlone : LoneHead s.dev p x := ⟨ht, hp, hf, hstate, htimer⟩
    have hx := (exec_fencePoll ..).trans (congrArg (done s) (doFencePoll_waiting hp hf (by omega) hlone.waitingHead))
    refine ⟨fun hmet hwait => ?_, fun hdeps hunmet => ⟨_, ⟨hx, rfl, rfl⟩, hlone.pump_unmet_tasks hhead hdeps hunmet⟩⟩
    obtain ⟨y, hy, -, -, hdesc, hreleased, -⟩ := releaseTask_tasks p ht
    exact ⟨_, y, ⟨hx.trans (congrArg (done s) (hlone.pump_release hhead hmet hwait)), rfl, rfl⟩, hy, hdesc, hreleased⟩

end Sys2Proof
end

section
/-! SUPPORT. The host's writes to mailboxes: posts, plain writes to a post register, acknowledges (13 R402, R403, 14 R426). -/

namespace Sys2Proof

open Sys2Proof.Machine

theorem exec_dmwrPost (space : RegSpace) (off size : Nat) (body : BitVec 128) (s : State) :
    exec (.dmwrPost space off size body) s = done s (doDmwrPost space off size body s.dev) := rfl
theorem exec_postedWriteDrop (space : RegSpace) (off : Nat) (s : State) :
    exec (.postedWriteDrop space off) s = done s (doPostedWriteDrop space off s.dev) := rfl
theorem exec_mbxRxAck (mb : MailboxId) (v : Word) (s : State) :
    exec (.mbxRxAck mb v) s = done s (doMbxRxAck mb v s.dev) := rfl

/-! ## Writes to a post register (R402, R403) -/

/-- A BAR is open only while CXL.io carries requests. -/
theorem ioUp_of_barOpen {d : Dev} {k : Nat} (h : d.barOpen k = true) : d.ioUp = true := by
  simp only [Dev.barOpen, Bool.and_eq_true] at h
  obtain ⟨⟨⟨hio, -⟩, -⟩, -⟩ := h
  exact hio

/-- The device whose mailbox has taken a message as its youngest. -/
def withPost (d : Dev) (n : Nat) (m : MailMsg) : Dev :=
  (d.setMailbox n { d.mailbox n with msgs := (d.mailbox n).msgs ++ [m] }).complete .success

section PostRegister
variable {d : Dev} {mb : MailboxId} {space : RegSpace} {off : Nat}

theorem doPostedWriteDrop_of_postRegister (hr : postRegister space off = some mb) (ho : d.barOpen (spaceFn space) = true) :
    doPostedWriteDrop space off d = { d with host := { d.host with dmwrDropped := (d.host.dmwrDropped + 1) % 2 ^ 32 } } := by
  simp [doPostedWriteDrop, hr, ho]

/-- A post of 16 aligned bytes is placed when its mailbox takes posts and has a place free, and else refused. -/
theorem doDmwrPost_of_aligned (hr : postRegister space off = some mb) (ho : d.barOpen (spaceFn space) = true) (ha : off % 16 = 0)
    (body : BitVec 128) : doDmwrPost space off 16 body d =
      if d.postTaken mb = true ∧ (d.mailbox (mailNum mb)).msgs.length < 16 then withPost d (mailNum mb) (mailMsgOf body)
      else d.refusePost := by
  simp only [doDmwrPost, ioUp_of_barOpen ho, hr, ho, ha]
  cases d.postTaken mb with
  | false => simp
  | true =>
    by_cases hfree : (d.mailbox (mailNum mb)).msgs.length < 16
    · simp [hfree, Nat.not_le.2 hfree, withPost]
    · simp [hfree, Nat.not_lt.1 hfree]

theorem doDmwrPost_of_other_size (hr : postRegister space off = some mb) (ho : d.barOpen (spaceFn space) = true) {size : Nat}
    (hs : size ≠ 16) (body : BitVec 128) : doDmwrPost space off size body d = d.complete .unsupported := by
  simp [doDmwrPost, ioUp_of_barOpen ho, hr, ho, hs]

end PostRegister

/-! ## Acknowledges (R425, R426) -/

theorem mailbox_mailAck (d : Dev) (n j : Nat) (seq rc : BitVec 16) : (d.mailAck n seq rc).mailbox j =
    if j = n then { d.mailbox n with acks := sput (d.mailbox n).acks (seq.toNat % 16) (seq, rc) } else d.mailbox j :=
  Dev.mailbox_setMailbox ..

/-- An acknowledge slot reads back what was written to it, marked valid. -/
theorem ack_of_sput (ms : List MailMsg) (l : Sparse (BitVec 16 × BitVec 16)) (k : Nat) (seq rc : BitVec 16) :
    Mailbox.ack { msgs := ms, acks := sput l k (seq, rc) } k = seq.toNat + rc.toNat <<< 16 + 1 <<< 32 := by
  simp [Mailbox.ack, sfind_sput]

/-- The halves of MBX_RX_ACK: the sequence that it names, and its return code. -/
theorem ackSeq_eq_iff (q : BitVec 16) (v : Word) : q = v.extractLsb' 0 16 ↔ v.toNat % 65536 = q.toNat := by
  rw [← BitVec.toNat_inj, BitVec.extractLsb'_toNat, Nat.shiftRight_zero]
  exact eq_comm

theorem ackRc_toNat (v : Word) : (v.extractLsb' 16 16).toNat = v.toNat / 65536 := by
  have hv := v.isLt
  rw [BitVec.extractLsb'_toNat, Nat.shiftRight_eq_div_pow]
  omega

/-- The device whose mailbox has lost its oldest message, acknowledged with a return code. -/
def withAck (d : Dev) (n : Nat) (m : MailMsg) (rest : List MailMsg) (rc : BitVec 16) : Dev :=
  (d.setMailbox n { d.mailbox n with msgs := rest }).mailAck n m.seq rc

theorem mailbox_withAck_self (d : Dev) (n : Nat) (m : MailMsg) (rest : List MailMsg) (rc : BitVec 16) :
    (withAck d n m rest rc).mailbox n = { msgs := rest, acks := sput (d.mailbox n).acks (m.seq.toNat % 16) (m.seq, rc) } := by
  simp [withAck, mailbox_mailAck]

theorem mailbox_withAck_other (d : Dev) (m : MailMsg) (rest : List MailMsg) (rc : BitVec 16) {n k : Nat} (h : k ≠ n) :
    (withAck d n m rest rc).mailbox k = d.mailbox k := by
  simp [withAck, mailbox_mailAck, h]

/-- The receiver of an instance's tenant mailbox reaches its page: the manager on physical function 0, the tenant on its
virtual function (R423). -/
def ReceiverOpen (d : Dev) (mb : MailboxId) (i : Nat) : Prop :=
  mb = .toManager i ∧ d.barOpen 0 = true ∨ mb = .toTenant i ∧ d.barOpen (i + 1) = true

/-- The receiver's acknowledge with a message waiting: it counts when it names the oldest's sequence. -/
theorem doMbxRxAck_of_waiting {d : Dev} {mb : MailboxId} {i : Nat} {m : MailMsg} {rest : List MailMsg} (ho : ReceiverOpen d mb i)
    (hm : (d.mailbox (mailNum mb)).msgs = m :: rest) (v : Word) : doMbxRxAck mb v d =
      if v.toNat % 65536 = m.seq.toNat then withAck d (mailNum mb) m rest (v.extractLsb' 16 16) else d := by
  obtain ⟨rfl, hbar⟩ | ⟨rfl, hbar⟩ := ho
  case inl => simp [doMbxRxAck, mailInst, hbar, hm, ackSeq_eq_iff, withAck]
  case inr => simp [doMbxRxAck, mailInst, hbar, hm, ackSeq_eq_iff, withAck]

/-! ## The statement -/

/-- Settles O41: a post is placed or refused by whether its mailbox takes it and has a place; an acknowledge counts by
whether it names the oldest message's sequence. -/
theorem mailboxes : Obligations.Mailboxes := by
  unfold Obligations.Mailboxes
  intro s mb space off n x
  refine ⟨fun hr ho => ⟨?dropped, fun body => ⟨fun ha ht hfree => ?placed, fun ha hno => ?aborted, fun size hs => ?unsupported⟩⟩,
    fun i m rest v ho hm => ⟨fun hseq => ?acknowledged, fun hseq => ?ignored⟩⟩
  case dropped =>
    exact (exec_postedWriteDrop ..).trans (congrArg (done s) (doPostedWriteDrop_of_postRegister hr ho))
  case placed =>
    have hpost := (doDmwrPost_of_aligned hr ho ha body).trans (if_pos ⟨ht, hfree⟩)
    exact (exec_dmwrPost ..).trans (congrArg (done s) hpost)
  case aborted =>
    have hrefused : ¬ (s.dev.postTaken mb = true ∧ x.msgs.length < 16) := by
      rintro ⟨ht, hfree⟩
      obtain hoff | hfull := hno
      · exact absurd ht (by simp [hoff])
      · omega
    have hpost := (doDmwrPost_of_aligned hr ho ha body).trans (if_neg hrefused)
    exact (exec_dmwrPost ..).trans (congrArg (done s) hpost)
  case unsupported =>
    exact (exec_dmwrPost ..).trans (congrArg (done s) (doDmwrPost_of_other_size hr ho hs body))
  case acknowledged =>
    have hack := (doMbxRxAck_of_waiting ho hm v).trans (if_pos hseq)
    have hself := mailbox_withAck_self s.dev n m rest (v.extractLsb' 16 16)
    refine ⟨_, ⟨(exec_mbxRxAck ..).trans (congrArg (done s) hack), rfl, rfl⟩, congrArg Mailbox.msgs hself, ?slot,
      fun k hk => mailbox_withAck_other s.dev m rest _ hk⟩
    case slot => exact (congrArg (Mailbox.ack · (m.seq.toNat % 16)) hself).trans ((ack_of_sput ..).trans (by rw [ackRc_toNat]))
  case ignored =>
    have hack := (doMbxRxAck_of_waiting ho hm v).trans (if_neg hseq)
    exact (exec_mbxRxAck ..).trans (congrArg (done s) hack)

end Sys2Proof
end

section
/-! SUPPORT. Seif ports: writes of a port, the lanes chosen, training, retrain and resend, and changes of width
(15 R444-R446, R449). -/

namespace Sys2Proof

open Sys2Proof.Machine

theorem exec_seifTraining (n : Nat) (peer : SeifPeer) (s : State) :
    exec (.seifTraining n peer) s = done s (doSeifTraining n peer s.dev) := rfl
theorem exec_retrain (n : Nat) (peer : SeifPeer) (s : State) :
    exec (.retrain n peer) s = done s (doRetrain n peer s.dev) := rfl
theorem exec_laneLossOfLock (n lane : Nat) (s : State) :
    exec (.laneLossOfLock n lane) s = done s (doLaneLossOfLock n lane s.dev) := rfl
theorem exec_laneChange (n lanes : Nat) (s : State) :
    exec (.laneChange n lanes) s = done s (doLaneChange n lanes s.dev) := rfl

/-! ## Writes of a port -/

theorem port_setPort (d : Dev) (n : Nat) (x : Port) (k : Nat) : (d.setPort n x).port k = if k = n then x else d.port k :=
  sget_sset _ _ n x k

/-- A LINK entry for a port changes the fault collector and device memory alone. -/
theorem seifEntry_frame (d : Dev) (n : Nat) : { d.seifEntry n with faults := d.faults, mem := d.mem } = d :=
  Dev.logEntry_frame d _

/-- The device whose port has been replaced, with a LINK entry for it. -/
def withPort (d : Dev) (n : Nat) (x : Port) : Dev := (d.setPort n x).seifEntry n

theorem withPort_frame (d : Dev) (n : Nat) (x : Port) :
    { withPort d n x with faults := d.faults, mem := d.mem, ports := d.ports } = d :=
  congrArg (fun e : Dev => { e with ports := d.ports }) (seifEntry_frame (d.setPort n x) n)

theorem port_withPort (d : Dev) (n : Nat) (x : Port) (k : Nat) : (withPort d n x).port k = if k = n then x else d.port k :=
  (congrArg (fun e : Dev => e.port k) (seifEntry_frame (d.setPort n x) n)).trans (port_setPort d n x k)

theorem port_withPort_self (d : Dev) (n : Nat) (x : Port) : (withPort d n x).port n = x :=
  (port_withPort d n x n).trans (if_pos rfl)

theorem port_withPort_other (d : Dev) {n k : Nat} (x : Port) (h : k ≠ n) : (withPort d n x).port k = d.port k :=
  (port_withPort d n x k).trans (if_neg h)

theorem withPort_net (d : Dev) (n : Nat) (x : Port) : (withPort d n x).net = d.net :=
  (congrArg Dev.net (withPort_frame d n x) :)

theorem withPort_tasks (d : Dev) (n : Nat) (x : Port) : (withPort d n x).tasks = d.tasks :=
  (congrArg Dev.tasks (withPort_frame d n x) :)

/-- A command that replaces a port completes with that port. -/
theorem next_of_withPort {s : State} {c : Instr} {n : Nat} {x : Port} (h : exec c s = done s (withPort s.dev n x)) :
    ∃ t, Next s c t ∧ t.dev.port n = x :=
  ⟨_, ⟨h, rfl, rfl⟩, port_withPort_self ..⟩

/-! ## The lanes chosen (R445, R446) -/

theorem chooseLanes_mem (good : BitVec 8) :
    chooseLanes good ∈ [(0xFF : BitVec 8), 0x0F, 0xF0, 0x03, 0x0C, 0x30, 0xC0, 0] := by
  unfold chooseLanes
  repeat' split
  all_goals decide

/-- Half of every width that can be chosen is four lanes or a pair; a pair stays. -/
theorem halfLanes_mem : ∀ l ∈ [(0xFF : BitVec 8), 0x0F, 0xF0, 0x03, 0x0C, 0x30, 0xC0, 0],
    halfLanes l ∈ [(0x0F : BitVec 8), 0x03, 0x30, 0x0C, 0xC0, 0] := by decide

/-- A lane that is not good in a retrain is lost already when the lanes are chosen. -/
theorem good_and_not_lost (good lost : BitVec 8) : good &&& ~~~(lost ||| ~~~good) = good &&& ~~~lost := by
  rw [BitVec.not_or, BitVec.not_not, BitVec.and_comm (~~~lost), ← BitVec.and_assoc, BitVec.and_self]

/-! ## Training (R442, R444) -/

/-- A port is to train: its supply is on, it is enabled, and it trains or has been DOWN for 1 s. -/
def TrainingDue (d : Dev) (n : Nat) : Prop :=
  d.power.rails.seif = true ∧ d.portEnabled n = true
    ∧ ((d.port n).state = .training ∧ (d.port n).retraining = false
      ∨ (d.port n).state = .down ∧ (d.port n).downAt + 1000000000 ≤ d.time)

/-- The port after training has brought it up on the lanes `l`: its sequence numbers, credits and retry buffer are new. -/
def upPort (d : Dev) (x : Port) (peer : SeifPeer) (l : BitVec 8) : Port :=
  { x with peerModule := peer.modId, peerPort := peer.port, state := .up, lanes := d.runLanes l, trained := l
           txSeq := 0, rxSeq := 0, retry := [], oldResent := 0, ctrlUsed := 0, bulkUsed := 0, ctrlBack := 0, bulkBack := 0
           ctrlIn := x.ctrlIn.map (fun m => { m with last := false })
           bulkIn := x.bulkIn.map (fun m => { m with last := false }) }

/-- What training makes of a port: DOWN without a peer or lanes, MISMATCH for an unexpected peer, else UP. -/
def trainedPort (d : Dev) (n : Nat) (peer : SeifPeer) : Port :=
  let x := d.port n
  let l := chooseLanes (peer.good &&& ~~~x.lost)
  if peer.present = false ∨ l = 0 then { x with state := .down, lanes := 0, downAt := d.time }
  else if peerExpected (d.portEntry n) peer = false then
    { x with state := .mismatch, lanes := 0, peerModule := peer.modId, peerPort := peer.port }
  else upPort d x peer l

theorem doSeifTraining_of_due {d : Dev} {n : Nat} (h : TrainingDue d n) (peer : SeifPeer) :
    doSeifTraining n peer d = withPort d n (trainedPort d n peer) := by
  obtain ⟨hrail, henabled, hstate⟩ := h
  have hdue : ((d.port n).state == .training && !(d.port n).retraining
      || (d.port n).state == .down && decide (d.time ≥ (d.port n).downAt + 1000000000)) = true := by
    simpa using hstate
  unfold doSeifTraining trainedPort
  simp only [hrail, henabled, hdue, Bool.and_self, Bool.not_true, Bool.false_eq_true, if_false, Bool.or_eq_true,
    Bool.not_eq_true', beq_iff_eq, apply_ite (withPort d n)]
  rfl

section Trained
variable {d : Dev} {n : Nat} {peer : SeifPeer}

theorem trainedPort_down (h : peer.present = false ∨ chooseLanes (peer.good &&& ~~~(d.port n).lost) = 0) :
    trainedPort d n peer = { d.port n with state := .down, lanes := 0, downAt := d.time } := if_pos h

theorem trainedPort_present (hp : peer.present = true) (hl : chooseLanes (peer.good &&& ~~~(d.port n).lost) ≠ 0) :
    trainedPort d n peer = if peerExpected (d.portEntry n) peer = false then
        { d.port n with state := .mismatch, lanes := 0, peerModule := peer.modId, peerPort := peer.port }
      else upPort d (d.port n) peer (chooseLanes (peer.good &&& ~~~(d.port n).lost)) :=
  if_neg fun h => h.elim (by simp [hp]) hl

end Trained

/-! ## Flits sent again (R449) -/

/-- What a flit on the wire carries: its kind, its sequence number and its messages. -/
def flitContents (f : WireFlit) : Nat × Nat × List SeifMsg := (f.kind, f.seq, f.msgs)

/-- A flit of the retry buffer goes on the wire again. -/
def resendFlit (y : Port) (f : SentFlit) : Port := y.nullDue.emit 0 f.seq f.bulk f.msgs

theorem nullDue_of_lt {x : Port} (h : x.sinceNull < 4095) : x.nullDue = x := if_neg (Nat.not_le.2 h)

/-- While no NULL comes due, the flits of a list stand on the wire in their order, and nothing else does. -/
theorem foldl_resendFlit_wire (fs : List SentFlit) (y : Port) (h : y.sinceNull + fs.length ≤ 4095) :
    (fs.foldl resendFlit y).wire.map flitContents = y.wire.map flitContents ++ fs.map (fun f => (0, f.seq, f.msgs)) := by
  induction fs generalizing y with
  | nil => simp
  | cons f fs ih =>
    rw [List.length_cons] at h
    have hsend : resendFlit y f = y.emit 0 f.seq f.bulk f.msgs :=
      congrArg (fun z : Port => z.emit 0 f.seq f.bulk f.msgs) (nullDue_of_lt (by omega))
    have hcount : (y.emit 0 f.seq f.bulk f.msgs).sinceNull + fs.length ≤ 4095 := by
      change y.sinceNull + 1 + fs.length ≤ 4095
      omega
    rw [List.foldl_cons, hsend, ih _ hcount]
    simp [Port.emit, flitContents]

/-- The port `y` with what flits that go out change as in `x`: the wire, the credits to return, the count since the last
NULL, and the count of flits resent. -/
def exceptSent (x y : Port) : Port :=
  { y with wire := x.wire, ctrlBack := x.ctrlBack, bulkBack := x.bulkBack, sinceNull := x.sinceNull, resent := x.resent }

theorem resendFlit_frame (x : Port) (f : SentFlit) : exceptSent x (resendFlit x f) = x := by
  unfold resendFlit Port.nullDue
  split <;> rfl

theorem foldl_resendFlit_frame (fs : List SentFlit) (x : Port) : exceptSent x (fs.foldl resendFlit x) = x := by
  induction fs generalizing x with
  | nil => rfl
  | cons f fs ih => exact (congrArg (exceptSent x) (ih (resendFlit x f))).trans (resendFlit_frame x f)

theorem resendAll_frame (x : Port) : exceptSent x x.resendAll = x := foldl_resendFlit_frame x.retry x

theorem resendAll_wire {x : Port} (h : x.sinceNull + x.retry.length ≤ 4095) :
    x.resendAll.wire.map flitContents = x.wire.map flitContents ++ x.retry.map (fun f => (0, f.seq, f.msgs)) :=
  foldl_resendFlit_wire x.retry x h

/-- Nothing is sent while no message waits. -/
theorem pump_of_txq_nil {x : Port} (h : x.txq = []) : x.pump = x := by
  have hnone : x.sendOne = none := by simp [Port.sendOne, h]
  simp [Port.pump, Port.pumpFor, hnone]

/-! ## Retrain (R446) -/

/-- The port that a retrain brings up on the lanes `l`, before it resends: lanes that are not good are lost. -/
def retrainedPort (d : Dev) (x : Port) (peer : SeifPeer) (l : BitVec 8) : Port :=
  { x with state := .up, retraining := false, lost := x.lost ||| ~~~peer.good, lanes := d.runLanes l, trained := l, oldResent := 0 }

theorem doRetrain_of_expected {d : Dev} {n : Nat} {peer : SeifPeer} (hr : (d.port n).retraining = true) (hq : (d.port n).txq = [])
    (hp : peer.present = true) (hl : chooseLanes (peer.good &&& ~~~(d.port n).lost) ≠ 0)
    (he : peerExpected (d.portEntry n) peer = true) :
    doRetrain n peer d
      = withPort d n (retrainedPort d (d.port n) peer (chooseLanes (peer.good &&& ~~~(d.port n).lost))).resendAll := by
  generalize hy : retrainedPort d (d.port n) peer (chooseLanes (peer.good &&& ~~~(d.port n).lost)) = y
  have hpump : y.resendAll.pump = y.resendAll :=
    pump_of_txq_nil ((congrArg Port.txq (resendAll_frame y) :).trans (hy ▸ hq))
  rw [← hpump, ← hy]
  simp [doRetrain, hr, hp, he, good_and_not_lost, withPort, retrainedPort]
  exact fun hnone => absurd hnone hl

/-! ## Changes of width (R446) -/

theorem doLaneLossOfLock_of_used {d : Dev} {n lane : Nat} (hu : (d.port n).state = .up) (h8 : lane < 8)
    (hl : (d.port n).lanes.getLsbD lane = true) : doLaneLossOfLock n lane d =
      withPort d n { d.port n with state := .training, retraining := true, lanes := 0
                                   retrains := min ((d.port n).retrains + 1) 0xFFFF } :=
  if_pos ⟨hu, h8, hl⟩

/-- A width that the peer may ask for is taken; the one in use changes nothing. -/
theorem doLaneChange_of_allowed {d : Dev} {n lanes : Nat} (hu : (d.port n).state = .up)
    (h : BitVec.ofNat 8 lanes = halfLanes (d.port n).lanes ∨ BitVec.ofNat 8 lanes = (d.port n).trained) :
    doLaneChange n lanes d = if (d.port n).lanes = BitVec.ofNat 8 lanes then d
      else withPort d n (({ d.port n with lanes := BitVec.ofNat 8 lanes } : Port).emit 3 0 false []) :=
  if_pos ⟨hu, h⟩

/-! ## The statement -/

/-- Settles O31: each command replaces its port and notes it; a retrain's resends keep the port but for the wire and its
counts; the lanes come from a list of eight widths. -/
theorem seifPorts : Obligations.SeifPorts := by
  unfold Obligations.SeifPorts
  refine ⟨?commands, fun good => rfl, fun good => halfLanes_mem _ (chooseLanes_mem good)⟩
  intro s n peer x l
  refine ⟨fun hrail henabled hstate => ?training, fun lane hu h8 hlane => ?lockLoss, fun hr hq hnull hp hl he => ?retrain,
    fun lanes hu hallowed => ?width⟩
  case training =>
    have hx := (exec_seifTraining n peer s).trans (congrArg (done s) (doSeifTraining_of_due ⟨hrail, henabled, hstate⟩ peer))
    refine ⟨fun hdown => ?_, fun hp hl he => ?_, fun hp hl he => ?_⟩
    · rw [trainedPort_down hdown] at hx
      exact next_of_withPort hx
    · rw [trainedPort_present hp hl, if_pos he] at hx
      exact next_of_withPort hx
    · rw [trainedPort_present hp hl, if_neg (by simp [he])] at hx
      have hport := port_withPort_self s.dev n (upPort s.dev x peer l)
      exact ⟨_, ⟨hx, rfl, rfl⟩, congrArg Port.state hport, congrArg Port.trained hport, congrArg Port.lanes hport,
        congrArg Port.retry hport, congrArg Port.txSeq hport, congrArg Port.rxSeq hport,
        fun k hk => port_withPort_other _ _ hk, withPort_net .., withPort_tasks ..⟩
  case lockLoss =>
    exact next_of_withPort ((exec_laneLossOfLock ..).trans (congrArg (done s) (doLaneLossOfLock_of_used hu h8 hlane)))
  case retrain =>
    have hx := (exec_retrain n peer s).trans (congrArg (done s) (doRetrain_of_expected hr hq hp hl he))
    have hport := port_withPort_self s.dev n (retrainedPort s.dev x peer l).resendAll
    have hkept := (congrArg (exceptSent _) hport).trans (resendAll_frame (retrainedPort s.dev x peer l))
    have hwire := resendAll_wire (x := retrainedPort s.dev x peer l) (Nat.le_of_lt hnull)
    exact ⟨_, ⟨hx, rfl, rfl⟩, congrArg Port.state hkept, congrArg Port.retraining hkept, congrArg Port.lost hkept,
      congrArg Port.trained hkept, (congrArg Port.retry hkept :), withPort_tasks ..,
      (congrArg (fun y : Port => y.wire.map flitContents) hport).trans hwire⟩
  case width =>
    have hx := (exec_laneChange n lanes s).trans (congrArg (done s) (doLaneChange_of_allowed hu hallowed))
    refine ⟨fun hsame => ?_, fun hother => ?_⟩
    · rw [if_pos hsame.symm] at hx
      exact hx
    · rw [if_neg (Ne.symm hother)] at hx
      exact next_of_withPort hx

end Sys2Proof
end
